-- ==== Sys2Proof/Word.lean ====
section
/-! DEFINITION. The word types of the block and their plainest arithmetic (00_scope.md rules R7, R8, R10). -/

namespace Sys2Proof

/-- `Byte` of R10: 8 bits. -/
abbrev Byte := BitVec 8

/-- The 12-bit RegisterAddress of R50. -/
abbrev RegAddr := BitVec 12

/-- `Addr` of R10: the 16-bit address operand; only values below 0x1000 are legal. -/
abbrev Addr := BitVec 16

/-- `Cmd` of R10: the 4-bit wire opcode. -/
abbrev Cmd := BitVec 4

/-- `Payload` of R10: 24 bits. -/
abbrev Payload := BitVec 24

/-- `Raw` of R10: 21 bits. -/
abbrev Raw := BitVec 21

/-- `Status3` of R10: 3 bits. -/
abbrev Status3 := BitVec 3

/-- `DegQ` of R10: 27 bits, read as UQ9.18 degrees. -/
abbrev DegQ := BitVec 27

end Sys2Proof
end

