-- ==== Sys2Proof/Config.lean ====
section
/-! DEFINITION. The block's parameters (00_scope.md rule R6) and its free values: what an implementation or the
environment decides and the spec leaves open. -/

namespace Sys2Proof

/-- The values of the open parameter ANGLE_FLOAT (R6, R156). -/
inductive AngleFloat where
  | none
  | binary32
  | binary64
deriving DecidableEq, Repr, Inhabited

/-- What the bus answers to one byte slot (10_state.md R28): a byte, `BusError`, or nothing ever. -/
inductive SlotAnswer where
  | byte (b : Byte)
  | busError
  | never
deriving DecidableEq, Repr, Inhabited

namespace Config

/-- CRC_POLY of R6: x⁸+x²+x+1 without its x⁸ term. -/
def crcPoly : Byte := 0x07

/-- CRC_INIT of R6. -/
def crcInit : Byte := 0x00

/-- CRC_XOROUT of R6. -/
def crcXorOut : Byte := 0x00

/-- ACK_BYTE of R6. -/
def ackByte : Byte := 0x55

/-- DUMMY_BYTE of R6. -/
def dummyByte : Byte := 0x00

/-- ANGLE_BASE of R6: the registers of the angle frame are 0x003 to 0x006. -/
def angleRegs : List RegAddr := [0x003, 0x004, 0x005, 0x006]

/-- BURST_ADDR of R6. -/
def burstAddr : RegAddr := 0x003

/-- CAL_REG of R6. -/
def calReg : RegAddr := 0x113

/-- The first address operand that names no register (R50, R57). -/
def addrLimit : Addr := 0x1000

/-- ANGLE_FLOAT (R6, R31): fixed at build time and left open, so a constant with no body; log entry 9. -/
opaque angleFloat : AngleFloat

/-- The draw of R28: the answer to the n-th slot that State.answers does not script. No body, so nothing is known of
it; log entry 1. -/
opaque busDraw : Nat → SlotAnswer

end Config

end Sys2Proof
end

