-- ==== Sys2Proof/Syntax.lean ====
section
/-! DEFINITION. The instructions of the block: one constructor per row of spec/opcode_table.json, and the five wire
commands as names (30_encoding.md rules R71, R80, R81). -/

namespace Sys2Proof

/-- The five wire commands of R71: "Fixed enumeration, never extended". -/
inductive WireCmd where
  | readByte
  | writeByte
  | burnEeprom
  | setZero
  | readAngleBurst
deriving DecidableEq, Repr

/-- One request to the block. The first five are the wire commands of R71 presented as operations (R111, R114, R117,
R120, R181); the next twelve are the ops of R80; the last is the reserved op space 0b11xx of R81. -/
inductive Instr where
  /-- READ_BYTE (R111). -/
  | readByte (addr : Addr)
  /-- WRITE_BYTE (R114). -/
  | writeByte (addr : Addr) (data : Byte)
  /-- BURN_EEPROM (R117). -/
  | burnEeprom
  /-- SET_ZERO (R120). -/
  | setZero
  /-- READ_ANGLE_BURST (R181). -/
  | readAngleBurst
  /-- ENCODE, op 0x0 (R100). -/
  | encode (cmd : Cmd) (addr : Addr) (data : Byte)
  /-- DECODE, op 0x1 (R101); the in-bytes are a vector of any length (R82). -/
  | decode (cmd : Cmd) (ins : List Byte)
  /-- CRC8, op 0x2 (R133). -/
  | crc8 (payload : Payload)
  /-- ASSEMBLE, op 0x3 (R152). -/
  | assemble (b0 b1 b2 b3 : Byte)
  /-- CONVERT, op 0x4 (R154). -/
  | convert (raw : Raw)
  /-- STATUS_FLAGS, op 0x5 (R157). -/
  | statusFlags (status : Status3)
  /-- CAL_DECODE, op 0x6 (R163). -/
  | calDecode (v : Byte)
  /-- XFER, op 0x7 (R102). -/
  | xfer (cmd : Cmd) (addr : Addr) (data : Byte)
  /-- READ_ANGLE, op 0x8 (R166). -/
  | readAngle
  /-- STREAM_START, op 0x9 (R181). -/
  | streamStart
  /-- STREAM_BYTE, op 0xA (R184). -/
  | streamByte
  /-- STREAM_STOP, op 0xB (R187). -/
  | streamStop
  /-- RESERVED_OP, ops 0xC to 0xF (R81): the op select is 0b11 followed by `low`. -/
  | reservedOp (low : BitVec 2)
deriving DecidableEq, Repr

/-- The pseudo-operations of R84: "spelling only, with no semantics of their own". -/
inductive Pseudo where
  | readB (addr : Addr)
  | writeB (addr : Addr) (data : Byte)
  | burn
  | setZero
  | streamGroup
  | pollCal
deriving DecidableEq, Repr

end Sys2Proof
end

