-- ==== Sys2Proof/Decode.lean ====
section
/-! DEFINITION. From bits to instructions and back (30_encoding.md rules R70 to R82).

A presented request is a list of bytes. If the high nibble of its first byte is 0, the low nibble is the op select of
R80 and the operands follow, each in whole bytes, most significant byte first (log entry 6). Otherwise it is a wire
command of R71: the out-bytes of an NB frame (R73), or the two header bytes of a burst frame (R75). The two cannot be
confused, since no wire command has the opcode 0x0 (R79). -/

namespace Sys2Proof

/-- Why presented bits spell no request. -/
inductive DecodeError where
  /-- No byte at all. -/
  | empty
  /-- The opcode nibble of a wire frame is one of the eleven of R79. -/
  | reservedWireOpcode (opc : Cmd)
  /-- A wire frame whose number of slots is not its format's (R70). -/
  | frameLength
  /-- A fixed-address command whose address field is not the fixed one (R71). -/
  | fixedAddress
  /-- Fewer operand bytes than the op has. -/
  | truncated
  /-- More operand bytes than the op has. -/
  | trailing
  /-- An operand value wider than the operand (R82). -/
  | operandRange
deriving DecidableEq, Repr

/-- The high nibble of a byte. -/
def hiNibble (b : Byte) : BitVec 4 := b.extractLsb' 4 4

/-- The low nibble of a byte. -/
def loNibble (b : Byte) : BitVec 4 := b.extractLsb' 0 4

/-- A byte from two nibbles, the high one first. -/
def nibbles (h l : BitVec 4) : Byte := h ++ l

/-- The 4-bit opcode of a wire command (R71). -/
def WireCmd.code : WireCmd → Cmd
  | .readByte => 0x3
  | .writeByte => 0x6
  | .burnEeprom => 0xC
  | .setZero => 0x5
  | .readAngleBurst => 0xA

/-- The wire command a 4-bit value names; none for the reserved values of R79. -/
def WireCmd.ofCode (c : Cmd) : Option WireCmd :=
  if c = 0x3 then some .readByte
  else if c = 0x6 then some .writeByte
  else if c = 0xC then some .burnEeprom
  else if c = 0x5 then some .setZero
  else if c = 0xA then some .readAngleBurst
  else none

/-- How many slots a frame has (R70, R76). -/
inductive FrameSlots where
  /-- An NB frame: exactly 3 slots. -/
  | three
  /-- A burst frame: until CS_DEASSERT. -/
  | untilDeassert
deriving DecidableEq, Repr

/-- How a decoder of a bus trace tells a frame's length from the byte of slot 0 (R76). -/
def frameSlots (slot0 : Byte) : Except DecodeError FrameSlots :=
  match WireCmd.ofCode (hiNibble slot0) with
  | none => .error (.reservedWireOpcode (hiNibble slot0))
  | some .readAngleBurst => .ok .untilDeassert
  | some _ => .ok .three

/-- A 12-bit address from the low nibble of slot 0 and the byte of slot 1 (R72), as an address operand. -/
def frameAddr (slot0 slot1 : Byte) : Addr := (0#4 ++ loNibble slot0) ++ slot1

/-- The wire command that the out-bytes of a frame spell (R73, R75). Slot 2 of READ_BYTE, BURN_EEPROM and SET_ZERO is
not looked at (the `s` bits of the opcode table; log entry 7). -/
def decodeFrame (slot0 : Byte) (rest : List Byte) : Except DecodeError Instr :=
  match WireCmd.ofCode (hiNibble slot0), rest with
  | none, _ => .error (.reservedWireOpcode (hiNibble slot0))
  | some .readByte, [slot1, _] => .ok (.readByte (frameAddr slot0 slot1))
  | some .writeByte, [slot1, data] => .ok (.writeByte (frameAddr slot0 slot1) data)
  | some .burnEeprom, [slot1, _] =>
      if frameAddr slot0 slot1 = 0 then .ok .burnEeprom else .error .fixedAddress
  | some .setZero, [slot1, _] =>
      if frameAddr slot0 slot1 = 0 then .ok .setZero else .error .fixedAddress
  | some .readAngleBurst, [slot1] =>
      if frameAddr slot0 slot1 = Config.burstAddr.setWidth 16 then .ok .readAngleBurst else .error .fixedAddress
  | some _, _ => .error .frameLength

/-- How many operand bytes an op of R80 has in a presented request (log entry 6). DECODE has at least this many. -/
def operandBytes (op : BitVec 4) : Nat :=
  match op.toNat with
  | 0x0 => 4
  | 0x1 => 1
  | 0x2 => 3
  | 0x3 => 4
  | 0x4 => 3
  | 0x5 => 1
  | 0x6 => 1
  | 0x7 => 4
  | _ => 0

/-- A value of width w from one of width v, refused where it does not fit (R82: no operand is truncated). -/
def narrow {v : Nat} (w : Nat) (x : BitVec v) : Except DecodeError (BitVec w) :=
  if x.toNat < 2 ^ w then .ok (x.setWidth w) else .error .operandRange

/-- The request with op select `op` and the operand bytes `ops` (R80, R81, R82). R81 gives the reserved ops no operand
list; here they have no operands, so a reserved op select with any byte after it is refused as `trailing` and does not
raise ReservedOp (DESIGN CHOICE, log entry 16). -/
def decodeOp (op : BitVec 4) (ops : List Byte) : Except DecodeError Instr :=
  match op.toNat, ops with
  | 0x0, [c, ah, al, d] => (narrow 4 c).map fun cmd => .encode cmd (ah ++ al) d
  | 0x1, c :: ins => (narrow 4 c).map fun cmd => .decode cmd ins
  | 0x2, [p2, p1, p0] => .ok (.crc8 ((p2 ++ p1) ++ p0))
  | 0x3, [b0, b1, b2, b3] => .ok (.assemble b0 b1 b2 b3)
  | 0x4, [r2, r1, r0] => (narrow 21 ((r2 ++ r1) ++ r0)).map .convert
  | 0x5, [st] => (narrow 3 st).map .statusFlags
  | 0x6, [v] => .ok (.calDecode v)
  | 0x7, [c, ah, al, d] => (narrow 4 c).map fun cmd => .xfer cmd (ah ++ al) d
  | 0x8, [] => .ok .readAngle
  | 0x9, [] => .ok .streamStart
  | 0xA, [] => .ok .streamByte
  | 0xB, [] => .ok .streamStop
  | _, ops =>
      if 0xC#4 ≤ op ∧ ops = [] then .ok (.reservedOp (op.setWidth 2))
      else .error (if ops.length < operandBytes op then .truncated else .trailing)

/-- The instruction a presented request spells. Total on any bytes; what spells none is refused by name. -/
def decode : List Byte → Except DecodeError Instr
  | [] => .error .empty
  | b :: rest => if hiNibble b = 0 then decodeOp (loNibble b) rest else decodeFrame b rest

/-- The 16-bit header {opc, addr} as its two bytes, the high byte in slot 0 (R72). -/
def header (opc : Cmd) (addr : RegAddr) : List Byte :=
  let hdr : BitVec 16 := opc ++ addr
  [hdr.extractLsb' 8 8, hdr.extractLsb' 0 8]

/-- The byte that carries an op select (R80). -/
def opByte (op : BitVec 4) : Byte := nibbles 0 op

/-- The bytes of a request, from the same tables: R73 and R75 for the wire commands, R80 for the ops. -/
def encode : Instr → List Byte
  | .readByte addr => header 0x3 (addr.setWidth 12) ++ [Config.dummyByte]
  | .writeByte addr data => header 0x6 (addr.setWidth 12) ++ [data]
  | .burnEeprom => header 0xC 0x000 ++ [Config.dummyByte]
  | .setZero => header 0x5 0x000 ++ [Config.dummyByte]
  | .readAngleBurst => header 0xA Config.burstAddr
  | .encode cmd addr data =>
      [opByte 0x0, nibbles 0 cmd, addr.extractLsb' 8 8, addr.extractLsb' 0 8, data]
  | .decode cmd ins => [opByte 0x1, nibbles 0 cmd] ++ ins
  | .crc8 p => [opByte 0x2, p.extractLsb' 16 8, p.extractLsb' 8 8, p.extractLsb' 0 8]
  | .assemble b0 b1 b2 b3 => [opByte 0x3, b0, b1, b2, b3]
  | .convert raw => [opByte 0x4, 0#3 ++ raw.extractLsb' 16 5, raw.extractLsb' 8 8, raw.extractLsb' 0 8]
  | .statusFlags st => [opByte 0x5, 0#5 ++ st]
  | .calDecode v => [opByte 0x6, v]
  | .xfer cmd addr data =>
      [opByte 0x7, nibbles 0 cmd, addr.extractLsb' 8 8, addr.extractLsb' 0 8, data]
  | .readAngle => [opByte 0x8]
  | .streamStart => [opByte 0x9]
  | .streamByte => [opByte 0xA]
  | .streamStop => [opByte 0xB]
  | .reservedOp low => [opByte (0b11#2 ++ low)]

/-- The low n bytes of w, the most significant first: the first slot of a frame is its word's high byte (R55). -/
def bytesMsb : Nat → Nat → List Byte
  | 0, _ => []
  | n + 1, w => BitVec.ofNat 8 (w / 2 ^ (8 * n)) :: bytesMsb n w

/-- The presented bytes of the opcode-table word w of nbits bits. NB24 and BH16 rows are the out-bytes of a frame,
first slot in the high byte; an OP row is an op select, followed by as many zero operand bytes as the op has. -/
def tableBytes (nbits w : Nat) : List Byte :=
  if nbits ≤ 8 then
    BitVec.ofNat 8 w :: List.replicate (operandBytes (BitVec.ofNat 4 w)) 0
  else bytesMsb ((nbits + 7) / 8) w

/-- The instruction the decoder reads from a word numbered as spec/opcode_table.json numbers it. -/
def decodeTableWord (nbits w : Nat) : Option Instr :=
  match decode (tableBytes nbits w) with
  | .ok i => some i
  | .error _ => none

end Sys2Proof
end

