-- ==== Sys2Proof/Machine/State.lean ====
section
/-! DEFINITION. The block's state and what its requests answer (10_state.md, 60_exceptions.md rules R201 and R202). -/

namespace Sys2Proof.Machine

/-- The status codes of R201. -/
inductive Status where
  | ok
  | busError
  | commandNotAcknowledged
  | powerCycleRequired
deriving DecidableEq, Repr

/-- The contract fault causes of R202. -/
inductive FaultCause where
  | reservedOp
  | illegalCmd
  | addressRange
  | frameLength
  | busBusy
  | streamNotActive
  | stopMidGroup
deriving DecidableEq, Repr

/-- `Sample` of R10 and R151. -/
structure Sample where
  raw : Raw
  status : Status3
  crcRx : Byte
  crcCalc : Byte
  crcValid : Bool
  degQ : DegQ
deriving DecidableEq, Repr

/-- `Flags` of R10 (R157). -/
structure StatusFlags where
  undervoltage : Bool
  weakField : Bool
  overspeed : Bool
deriving DecidableEq, Repr

/-- `CalState` of R10 (R163). -/
inductive CalState where
  | notRun
  | inProgress
  | failed
  | succeeded
deriving DecidableEq, Repr

/-- The float output of CONVERT (R156): absent, or the bits of an IEEE 754 number. -/
inductive FloatOut where
  | none
  | binary32 (bits : BitVec 32)
  | binary64 (bits : BitVec 64)
deriving DecidableEq, Repr

/-- The result of a request that returns a status (the column "result" of R80). -/
inductive Result where
  | nothing
  | bytes (out : List Byte)
  | byte (b : Byte)
  | sample (smp : Sample)
  | samples (l : List Sample)
  | degrees (degQ : DegQ) (float : FloatOut)
  | flags (f : StatusFlags)
  | cal (c : CalState)
deriving DecidableEq, Repr

/-- How a request ends (R29, R200): a status with a result, or FAULT(cause) with the 4-bit code of s.fault_cause. -/
inductive Response where
  | status (st : Status) (r : Result)
  | fault (code : BitVec 4)
deriving DecidableEq, Repr

/-- An event of the bus trace (R27). `xchg o i` is the slot XCHG(o, i); `xchgError o` is a slot that sent o and failed
with BusError. -/
inductive BusEvent where
  | csAssert
  | xchg (o i : Byte)
  | xchgError (o : Byte)
  | csDeassert
deriving DecidableEq, Repr

/-- What reaches the block from outside, one entry a step. -/
inductive Input where
  /-- The caller presents a request (R29), as the bytes that spell it. -/
  | request (bytes : List Byte)
  /-- The external controller drives PWR_CYCLE_LOCK to this level (R23). -/
  | lock (level : Bool)
  /-- RST is applied between requests (R230), or while a request waits for a slot that is never answered (R232). -/
  | rst
  /-- The caller presents a request, and RST is applied while it runs, after its first n bus events (R232). -/
  | requestRst (bytes : List Byte) (n : Nat)
deriving DecidableEq, Repr

/-- How the byte slots sent one after another inside a frame end: every slot answered a byte, one answered BusError,
or one is never answered (R28). -/
inductive SlotsEnd where
  | bytes (ins : List Byte)
  | busError
  | hung
deriving DecidableEq, Repr

/-- The state: the seven fields of R20, the level of the input PWR_CYCLE_LOCK (R23), and the model's own record of the
environment (`inputs`, `answers`, `draws`), of a request that never returns (`busHung`), and of what the block has
emitted (`trace`, `responses`). -/
structure State where
  /-- s.fault (R20, R21). -/
  fault : Bool
  /-- s.fault_cause (R20, R202). -/
  faultCause : BitVec 4
  /-- s.strm_active (R20). -/
  strmActive : Bool
  /-- s.strm_idx (R20). -/
  strmIdx : BitVec 2
  /-- s.strm_buf[0] (R20). -/
  strmBuf0 : Byte
  /-- s.strm_buf[1] (R20). -/
  strmBuf1 : Byte
  /-- s.strm_buf[2] (R20). -/
  strmBuf2 : Byte
  /-- PWR_CYCLE_LOCK (R23). -/
  pwrCycleLock : Bool
  /-- What the outside world does next, oldest first. -/
  inputs : List Input
  /-- What the bus answers to the next slots, oldest first (R28). -/
  answers : List SlotAnswer
  /-- How many slots the free value `Config.busDraw` has answered. -/
  draws : Nat
  /-- A request runs whose current slot is never answered (R28). -/
  busHung : Bool
  /-- The bus trace (R27), oldest first. -/
  trace : List BusEvent
  /-- What the request interface has answered (R29), oldest first. -/
  responses : List Response
deriving DecidableEq, Repr

/-- Why the machine stops with no next state. -/
inductive Fault where
  /-- Raised by `step` alone, in a state whose request waits for a slot that is never answered, when anything but RST
  or a change of the lock would come next: "the request never returns, and the model has no step" (R28). Safe: the
  block makes no step there either. -/
  | busNeverAnswers
deriving DecidableEq, Repr

/-- Why the machine gives no meaning to what is presented. -/
inductive Refusal where
  /-- Raised by an arm of `exec` whose instruction has no meaning yet; none is left. Safe. -/
  | notModelled (mnemonic : String)
  /-- Raised by `step` when the presented bytes spell no request (R79); no instruction's meaning raises it. Safe. -/
  | undecodable (e : DecodeError)
deriving DecidableEq, Repr

/-- The state right after reset, with nothing presented and nothing answered (R32; the lock: log entry 3). -/
def State.reset : State where
  fault := false
  faultCause := 0
  strmActive := false
  strmIdx := 0
  strmBuf0 := 0
  strmBuf1 := 0
  strmBuf2 := 0
  pwrCycleLock := false
  inputs := []
  answers := []
  draws := 0
  busHung := false
  trace := []
  responses := []

end Sys2Proof.Machine
end

