-- ==== Sys2Proof/Machine/Flags.lean ====
section
/-! DEFINITION. The pure functions on data: the CRC and its check, the angle and its conversion, the status flags and
the calibration field (41_crc8.md, 42_angle.md). -/

namespace Sys2Proof.Machine

/-- The low n bits of v, the highest of them first. -/
def bitsMsb {w : Nat} (v : BitVec w) : Nat → List Bool
  | 0 => []
  | n + 1 => v.getLsbD n :: bitsMsb v n

/-- One pass of R130's loop: feed one bit into the CRC register. -/
def crcStep (c : Byte) (bit : Bool) : Byte :=
  (c <<< 1) ^^^ (if c.msb ^^ bit then Config.crcPoly else 0)

/-- R130's loop over a list of bits, in order. -/
def crcLoop (c : Byte) (bits : List Bool) : Byte := bits.foldl crcStep c

/-- `crc8` of R130: P[23] enters first. -/
def crc8 (p : Payload) : Byte := crcLoop Config.crcInit (bitsMsb p 24) ^^^ Config.crcXorOut

/-- The byte table T of R132. -/
def crcTable (b : Byte) : Byte := crcLoop 0 (bitsMsb b 8)

/-- The byte-wise form of R132. -/
def crc8Bytewise (p : Payload) : Byte :=
  [p.extractLsb' 16 8, p.extractLsb' 8 8, p.extractLsb' 0 8].foldl (fun c b => crcTable (c ^^^ b)) 0

/-- `convert` of R154: the exact degrees in UQ9.18. -/
def convert (raw : Raw) : DegQ := BitVec.ofNat 27 (raw.toNat * 45)

/-- `assemble` of R150. -/
def assemble (b0 b1 b2 b3 : Byte) : Sample :=
  let raw : Raw := (b0 ++ b1) ++ b2.extractLsb' 3 5
  let status : Status3 := b2.extractLsb' 0 3
  let crcCalc := crc8 (raw ++ status)
  { raw := raw
    status := status
    crcRx := b3
    crcCalc := crcCalc
    crcValid := decide (b3 = crcCalc)
    degQ := convert raw }

/-- The groups of 4 in-bytes of a burst, each assembled; none if a partial group is left over (R101, R180). -/
def groups : List Byte → Option (List Sample)
  | [] => some []
  | b0 :: b1 :: b2 :: b3 :: rest => (groups rest).map (assemble b0 b1 b2 b3 :: ·)
  | _ => none

/-- The bits of the binary64 number n / 2^18, for n < 2^53: exact (R156). -/
def binary64Of (n : Nat) : BitVec 64 :=
  if n = 0 then 0
  else BitVec.ofNat 64 ((n.log2 + 1005) * 2 ^ 52 + (n - 2 ^ n.log2) * 2 ^ (52 - n.log2))

/-- n / 2^k rounded to the nearest natural number, ties to the even one (roundTiesToEven of R156). -/
def roundShift (n k : Nat) : Nat :=
  let m := n / 2 ^ k
  let twice := 2 * (n % 2 ^ k)
  if 2 ^ k < twice ∨ (twice = 2 ^ k ∧ m % 2 = 1) then m + 1 else m

/-- The bits of the binary32 number nearest to n / 2^18, ties to even, for n < 2^32 (R156). A significand that rounds
up to 2^24 carries into the exponent field by the addition itself. -/
def binary32Of (n : Nat) : BitVec 32 :=
  if n = 0 then 0
  else
    let sig := if n.log2 ≤ 23 then n * 2 ^ (23 - n.log2) else roundShift n (n.log2 - 23)
    BitVec.ofNat 32 ((n.log2 + 109) * 2 ^ 23 + (sig - 2 ^ 23))

/-- `float_out` of R156. (raw / 2^21)·360 is exactly raw·45 / 2^18, so one rounding of that value is the rounding of
the source's product. -/
def floatOut (fmt : AngleFloat) (raw : Raw) : FloatOut :=
  match fmt with
  | .none => .none
  | .binary32 => .binary32 (binary32Of (raw.toNat * 45))
  | .binary64 => .binary64 (binary64Of (raw.toNat * 45))

/-- The StatusFlags of a status field (R157). -/
def statusFlagsOf (status : Status3) : StatusFlags where
  undervoltage := status.getLsbD 2
  weakField := status.getLsbD 1
  overspeed := status.getLsbD 0

/-- The calibration result in bits [7:6] of register 0x113; bits [5:0] are ignored (R53, R163). -/
def calStateOf (v : Byte) : CalState :=
  match (v.extractLsb' 6 2).toNat with
  | 0 => .notRun
  | 1 => .inProgress
  | 2 => .failed
  | _ => .succeeded

/-- The angleDegrees of R159: the exact degrees, or the bits of the float output where the block has one. -/
inductive AngleDegrees where
  /-- deg_q, to be read as deg_q / 2^18 degrees. -/
  | fixed (degQ : DegQ)
  | binary32 (bits : BitVec 32)
  | binary64 (bits : BitVec 64)
deriving DecidableEq, Repr

/-- "angleDegrees is deg_q / 2^18, or float_out(raw) when ANGLE_FLOAT ≠ none" (R159). -/
def angleDegreesOf (fmt : AngleFloat) (smp : Sample) : AngleDegrees :=
  match floatOut fmt smp.raw with
  | .none => .fixed smp.degQ
  | .binary32 bits => .binary32 bits
  | .binary64 bits => .binary64 bits

/-- The source's AngleSample, with its four fields (R159). -/
structure AngleSample where
  rawAngleCode : Raw
  statusBits : Status3
  crcValid : Bool
  angleDegrees : AngleDegrees
deriving DecidableEq, Repr

/-- The map of R159, for a block built with ANGLE_FLOAT = fmt. -/
def angleSampleOf (fmt : AngleFloat) (smp : Sample) : AngleSample where
  rawAngleCode := smp.raw
  statusBits := smp.status
  crcValid := smp.crcValid
  angleDegrees := angleDegreesOf fmt smp

end Sys2Proof.Machine
end

