-- ==== Sys2Proof/WellFormed.lean ====
section
/-! DEFINITION. Which instructions have an encoding: a wire frame spells a 12-bit address only (30_encoding.md rule R72),
so READ_BYTE and WRITE_BYTE with an address of 0x1000 or more have none. Their meaning is still given (they raise
AddressRange, 40_codec.md rules R111 and R114), and XFER carries such an address in its 16-bit operand (R82). -/

namespace Sys2Proof

/-- An address operand that a wire frame can carry (R50, R57). -/
def addrLegal (addr : Addr) : Bool := decide (addr < Config.addrLimit)

/-- The instruction's fields fit its encoding. -/
def Instr.wellFormed : Instr → Bool
  | .readByte addr => addrLegal addr
  | .writeByte addr _ => addrLegal addr
  | .burnEeprom => true
  | .setZero => true
  | .readAngleBurst => true
  | .encode _ _ _ => true
  | .decode _ _ => true
  | .crc8 _ => true
  | .assemble _ _ _ _ => true
  | .convert _ => true
  | .statusFlags _ => true
  | .calDecode _ => true
  | .xfer _ _ _ => true
  | .readAngle => true
  | .streamStart => true
  | .streamByte => true
  | .streamStop => true
  | .reservedOp _ => true

end Sys2Proof
end

