-- ==== Sys2Proof/Machine/Operands.lean ====
section
/-! DEFINITION. Operand forms: which operands a command reads, the out-bytes of its frame, and what its in-bytes mean
(30_encoding.md rules R73, R74, R82; 40_codec.md rules R100, R101). -/

namespace Sys2Proof.Machine

/-- The commands whose address operand is read and range-checked (R82). -/
def addrRead : WireCmd → Bool
  | .readByte => true
  | .writeByte => true
  | .burnEeprom => false
  | .setZero => false
  | .readAngleBurst => false

/-- `chk_addr` of 40_codec.md: the address operand is in range, or the command does not read it. -/
def addrOk (w : WireCmd) (addr : Addr) : Bool := !addrRead w || addrLegal addr

/-- The out-bytes of a command's frame: R73, and the header of R75. -/
def outBytes (w : WireCmd) (addr : Addr) (data : Byte) : List Byte :=
  match w with
  | .readByte => header w.code (addr.setWidth 12) ++ [Config.dummyByte]
  | .writeByte => header w.code (addr.setWidth 12) ++ [data]
  | .burnEeprom => header w.code 0 ++ [Config.dummyByte]
  | .setZero => header w.code 0 ++ [Config.dummyByte]
  | .readAngleBurst => header w.code Config.burstAddr

/-- What a pure codec operation answers: a fault to raise, or a status and a result. -/
abbrev Verdict := Except FaultCause (Status × Result)

/-- The body of ENCODE (R100). -/
def encodeVerdict (cmd : Cmd) (addr : Addr) (data : Byte) : Verdict :=
  match WireCmd.ofCode cmd with
  | none => .error .illegalCmd
  | some w => if addrOk w addr then .ok (.ok, .bytes (outBytes w addr data)) else .error .addressRange

/-- The acknowledgement check of BURN_EEPROM and SET_ZERO (R105). -/
def ackVerdict (ack : Byte) : Verdict :=
  if ack = Config.ackByte then .ok (.ok, .nothing) else .ok (.commandNotAcknowledged, .nothing)

/-- What the in-bytes of a command's frame mean (R101). -/
def replyVerdict (w : WireCmd) (ins : List Byte) : Verdict :=
  match w, ins with
  | .readByte, [_, _, b] => .ok (.ok, .byte b)
  | .writeByte, [_, _, _] => .ok (.ok, .nothing)
  | .burnEeprom, [_, _, ack] => ackVerdict ack
  | .setZero, [_, _, ack] => ackVerdict ack
  | .readAngleBurst, _ :: _ :: rest =>
      match groups rest with
      | some l => .ok (.ok, .samples l)
      | none => .error .frameLength
  | _, _ => .error .frameLength

/-- The body of DECODE (R101). -/
def decodeVerdict (cmd : Cmd) (ins : List Byte) : Verdict :=
  match WireCmd.ofCode cmd with
  | none => .error .illegalCmd
  | some w => replyVerdict w ins

/-- The in-byte of slot 2 of an NB frame, which has exactly three in-bytes (R74). -/
def slotTwo : List Byte → Byte
  | [_, _, b] => b
  | _ => 0

/-- The Sample of the four bytes READ_ANGLE has read, one from each of its four frames (R166). -/
def angleResult : List Byte → Result
  | [b0, b1, b2, b3] => .sample (assemble b0 b1 b2 b3)
  | _ => .nothing

end Sys2Proof.Machine
end

