-- ==== Sys2Proof/Machine/Ops.lean ====
section
/-! DEFINITION. The operations every request is made of: answering, raising a fault, the checks in the order of R206,
byte slots and frames on the bus, and reset (00_scope.md rule R9; 10_state.md rules R27, R28; 60_exceptions.md rules
R204 to R207; 70_reset_and_hazards.md rules R230 to R232). -/

namespace Sys2Proof.Machine

/-- The numeric code of a status (R201). -/
def Status.code : Status → Nat
  | .ok => 0
  | .busError => 1
  | .commandNotAcknowledged => 2
  | .powerCycleRequired => 3

/-- The numeric code of a fault cause (R202). -/
def FaultCause.code : FaultCause → BitVec 4
  | .reservedOp => 1
  | .illegalCmd => 2
  | .addressRange => 3
  | .frameLength => 4
  | .busBusy => 5
  | .streamNotActive => 6
  | .stopMidGroup => 7

/-- End the request with a response (R29). -/
def State.respond (s : State) (r : Response) : State := { s with responses := s.responses ++ [r] }

/-- `return (st, r)` of R9. -/
def State.answer (s : State) (st : Status) (r : Result) : State := s.respond (.status st r)

/-- `raise Fault(cause)` (R204): the exception entry of this block. It emits no bus event and changes no other
field. There is no return from it but reset (R205, R212). -/
def State.raiseFault (s : State) (cause : FaultCause) : State :=
  { s with fault := true, faultCause := cause.code }.respond (.fault cause.code)

/-- End the request as a pure codec operation decides. -/
def State.conclude (s : State) (v : Verdict) : State :=
  match v with
  | .ok (st, r) => s.answer st r
  | .error cause => s.raiseFault cause

/-- Check 1 of R206: a halted block answers FAULT(s.fault_cause) and writes nothing (R205). -/
def State.accept (s : State) (run : State → State) : State :=
  if s.fault then s.respond (.fault s.faultCause) else run s

/-- Checks 4 and 5 of R206 for a request that opens a frame: BusBusy, then PowerCycleRequired (R60, R207). -/
def State.openBus (s : State) (run : State → State) : State :=
  if s.strmActive then s.raiseFault .busBusy
  else if s.pwrCycleLock then s.answer .powerCycleRequired .nothing
  else run s

/-- Bus events appear on the trace in the order they are emitted (R27, R59). -/
def State.emit (s : State) (events : List BusEvent) : State := { s with trace := s.trace ++ events }

/-- The answer the bus will give to the k-th slot from now (R28): scripted in `answers`, or else a free value. -/
def State.slotAnswer (s : State) (k : Nat) : SlotAnswer :=
  s.answers.getD k (Config.busDraw (s.draws + (k - s.answers.length)))

/-- The environment after k slots have taken their answers. -/
def State.skipSlots (s : State) (k : Nat) : State :=
  { s with answers := s.answers.drop k, draws := s.draws + (k - s.answers.length) }

/-- `BusXchg(o)` of R9: one byte slot, with its answer and its event. A slot never answered leaves no event. -/
def State.busXchg (s : State) (o : Byte) : SlotAnswer × State :=
  match s.slotAnswer 0 with
  | .byte i => (.byte i, (s.skipSlots 1).emit [.xchg o i])
  | .busError => (.busError, (s.skipSlots 1).emit [.xchgError o])
  | .never => (.never, s.skipSlots 1)

/-- A byte received before the slots that end so. -/
def SlotsEnd.cons (i : Byte) : SlotsEnd → SlotsEnd
  | .bytes ins => .bytes (i :: ins)
  | .busError => .busError
  | .hung => .hung

/-- Slots one after another inside a frame; the first that does not answer a byte is the last one sent (R103). -/
def State.slots (s : State) : List Byte → SlotsEnd × State
  | [] => (.bytes [], s)
  | o :: outs =>
    match s.busXchg o with
    | (.byte i, t) => ((t.slots outs).1.cons i, (t.slots outs).2)
    | (.busError, t) => (.busError, t)
    | (.never, t) => (.hung, t)

/-- The request waits for a slot that is never answered: "the request never returns" (R28). -/
def State.hang (s : State) : State := { s with busHung := true }

/-- One whole frame: CS_ASSERT, its slots, CS_DEASSERT, the last also after a BusError (R102, R103). -/
def State.frame (s : State) (outs : List Byte) : SlotsEnd × State :=
  match (s.emit [.csAssert]).slots outs with
  | (.bytes ins, t) => (.bytes ins, t.emit [.csDeassert])
  | (.busError, t) => (.busError, t.emit [.csDeassert])
  | (.hung, t) => (.hung, t.hang)

/-- The common body of XFER and of the four NB wire commands, after the command check (R102). -/
def State.transfer (s : State) (w : WireCmd) (addr : Addr) (data : Byte) : State :=
  if addrOk w addr then
    s.openBus fun s =>
      match s.frame (outBytes w addr data) with
      | (.bytes ins, t) => t.conclude (replyVerdict w ins)
      | (.busError, t) => t.answer .busError .nothing
      | (.hung, t) => t
  else s.raiseFault .addressRange

/-- READ_BYTE frames of the registers listed, in order; the first failure ends them (R164, R165). -/
def State.readRegs (s : State) : List RegAddr → SlotsEnd × State
  | [] => (.bytes [], s)
  | a :: rest =>
    match s.frame (outBytes .readByte (a.setWidth 16) 0) with
    | (.bytes ins, t) => ((t.readRegs rest).1.cons (slotTwo ins), (t.readRegs rest).2)
    | (.busError, t) => (.busError, t)
    | (.hung, t) => (.hung, t)

/-- Open the burst frame: the common body of STREAM_START and READ_ANGLE_BURST (R181). -/
def State.openStream (s : State) : State :=
  s.openBus fun s =>
    match (s.emit [.csAssert]).slots (outBytes .readAngleBurst 0 0) with
    | (.bytes _, t) => { t with strmActive := true, strmIdx := 0 }.answer .ok .nothing
    | (.busError, t) => (t.emit [.csDeassert]).answer .busError .nothing
    | (.hung, t) => t.hang

/-- The byte r of the current group has arrived: buffer it, or complete the group (R184). -/
def State.takeGroupByte (s : State) (r : Byte) : State :=
  match s.strmIdx.toNat with
  | 0 => { s with strmBuf0 := r, strmIdx := 1 }.answer .ok .nothing
  | 1 => { s with strmBuf1 := r, strmIdx := 2 }.answer .ok .nothing
  | 2 => { s with strmBuf2 := r, strmIdx := 3 }.answer .ok .nothing
  | _ => { s with strmIdx := 0 }.answer .ok (.sample (assemble s.strmBuf0 s.strmBuf1 s.strmBuf2 r))

/-- A BusError inside the stream ends it (R185). -/
def State.abortStream (s : State) : State :=
  { s.emit [.csDeassert] with strmActive := false, strmIdx := 0 }.answer .busError .nothing

/-- Every field of R20 at its reset value (R32); no request runs any more. The inputs, the lock among them, and what
has been emitted stay. -/
def State.resetFields (s : State) : State :=
  { s with
    fault := false, faultCause := 0, strmActive := false, strmIdx := 0
    strmBuf0 := 0, strmBuf1 := 0, strmBuf2 := 0, busHung := false }

/-- RST between requests (R230), or while a request waits for a slot with its chip-select asserted (R232). A request that
waits inside an open stream gets one CS_DEASSERT, not one of R232 and another of R230 (DESIGN CHOICE, log entry 15). -/
def State.rst (s : State) : State :=
  (if s.strmActive || s.busHung then s.emit [.csDeassert] else s).resetFields

/-- The chip-select level after a bus trace. -/
def csAsserted (trace : List BusEvent) : Bool :=
  trace.foldl (fun level e =>
    match e with
    | .csAssert => true
    | .csDeassert => false
    | .xchg _ _ => level
    | .xchgError _ => level) false

/-- How many byte slots a piece of the trace holds. -/
def slotCount (events : List BusEvent) : Nat :=
  (events.filter fun e =>
    match e with
    | .xchg _ _ => true
    | .xchgError _ => true
    | .csAssert => false
    | .csDeassert => false).length

/-- RST inside a request that would take s to t (R232): the request's first n bus events stay in the trace, it ends
with no response, an asserted chip-select is deasserted, and the fields of R20 are reset. Inside an open stream too there is
one CS_DEASSERT, by the level of the chip-select, where R232 followed by R230 would read as two (DESIGN CHOICE, log entry
15). -/
def State.cutAt (s t : State) (n : Nat) : State :=
  let emitted := t.trace.drop s.trace.length
  let u : State :=
    if emitted.length ≤ n then { t with responses := s.responses }
    else { s.skipSlots (slotCount (emitted.take n)) with trace := s.trace ++ emitted.take n }
  (if csAsserted u.trace then u.emit [.csDeassert] else u).resetFields

end Sys2Proof.Machine
end

