-- ==== Sys2Proof/Machine/Angle.lean ====
section
/-! DEFINITION. The meanings of the CRC and angle families (41_crc8.md, 42_angle.md). -/

namespace Sys2Proof.Machine

/-- CRC8 (R133). -/
def execCrc8 (p : Payload) (s : State) : Host.Outcome State Fault Refusal :=
  .next (s.accept fun s => s.answer .ok (.byte (crc8 p)))

/-- ASSEMBLE (R152). -/
def execAssemble (b0 b1 b2 b3 : Byte) (s : State) : Host.Outcome State Fault Refusal :=
  .next (s.accept fun s => s.answer .ok (.sample (assemble b0 b1 b2 b3)))

/-- CONVERT (R154). -/
def execConvert (raw : Raw) (s : State) : Host.Outcome State Fault Refusal :=
  .next (s.accept fun s => s.answer .ok (.degrees (convert raw) (floatOut Config.angleFloat raw)))

/-- STATUS_FLAGS (R157). -/
def execStatusFlags (status : Status3) (s : State) : Host.Outcome State Fault Refusal :=
  .next (s.accept fun s => s.answer .ok (.flags (statusFlagsOf status)))

/-- CAL_DECODE (R163). -/
def execCalDecode (v : Byte) (s : State) : Host.Outcome State Fault Refusal :=
  .next (s.accept fun s => s.answer .ok (.cal (calStateOf v)))

/-- READ_ANGLE (R166). -/
def execReadAngle (s : State) : Host.Outcome State Fault Refusal :=
  .next (s.accept fun s => s.openBus fun s =>
    match s.readRegs Config.angleRegs with
    | (.bytes bs, t) => t.answer .ok (angleResult bs)
    | (.busError, t) => t.answer .busError .nothing
    | (.hung, t) => t)

end Sys2Proof.Machine
end

