-- ==== Sys2Proof/Machine/Codec.lean ====
section
/-! DEFINITION. The meanings of the codec family: the four three-slot wire commands, ENCODE, DECODE and XFER
(40_codec.md). -/

namespace Sys2Proof.Machine

/-- READ_BYTE (R111): `XFER READ_BYTE, addr`. -/
def execReadByte (addr : Addr) (s : State) : Host.Outcome State Fault Refusal :=
  .next (s.accept fun s => s.transfer .readByte addr 0)

/-- WRITE_BYTE (R114): `XFER WRITE_BYTE, addr, data`. -/
def execWriteByte (addr : Addr) (data : Byte) (s : State) : Host.Outcome State Fault Refusal :=
  .next (s.accept fun s => s.transfer .writeByte addr data)

/-- BURN_EEPROM (R117): `XFER BURN_EEPROM, 0`. -/
def execBurnEeprom (s : State) : Host.Outcome State Fault Refusal :=
  .next (s.accept fun s => s.transfer .burnEeprom 0 0)

/-- SET_ZERO (R120): `XFER SET_ZERO, 0`. -/
def execSetZero (s : State) : Host.Outcome State Fault Refusal :=
  .next (s.accept fun s => s.transfer .setZero 0 0)

/-- ENCODE (R100). -/
def execEncode (cmd : Cmd) (addr : Addr) (data : Byte) (s : State) : Host.Outcome State Fault Refusal :=
  .next (s.accept fun s => s.conclude (encodeVerdict cmd addr data))

/-- DECODE (R101). -/
def execDecode (cmd : Cmd) (ins : List Byte) (s : State) : Host.Outcome State Fault Refusal :=
  .next (s.accept fun s => s.conclude (decodeVerdict cmd ins))

/-- XFER (R102): a reserved command and READ_ANGLE_BURST raise IllegalCmd (R79). -/
def execXfer (cmd : Cmd) (addr : Addr) (data : Byte) (s : State) : Host.Outcome State Fault Refusal :=
  .next (s.accept fun s =>
    match WireCmd.ofCode cmd with
    | none => s.raiseFault .illegalCmd
    | some .readAngleBurst => s.raiseFault .illegalCmd
    | some w => s.transfer w addr data)

/-- RESERVED_OP (R81): every op of 0xC to 0xF raises ReservedOp. -/
def execReservedOp (_low : BitVec 2) (s : State) : Host.Outcome State Fault Refusal :=
  .next (s.accept fun s => s.raiseFault .reservedOp)

end Sys2Proof.Machine
end

