-- ==== Sys2Proof/Machine/Stream.lean ====
section
/-! DEFINITION. The meanings of the stream family (43_stream.md). -/

namespace Sys2Proof.Machine

/-- READ_ANGLE_BURST (R181): the wire command that STREAM_START sends. -/
def execReadAngleBurst (s : State) : Host.Outcome State Fault Refusal :=
  .next (s.accept fun s => s.openStream)

/-- STREAM_START (R181). -/
def execStreamStart (s : State) : Host.Outcome State Fault Refusal :=
  .next (s.accept fun s => s.openStream)

/-- STREAM_BYTE (R184, R185); the lock is not sampled (R189). -/
def execStreamByte (s : State) : Host.Outcome State Fault Refusal :=
  .next (s.accept fun s =>
    if s.strmActive then
      match s.busXchg Config.dummyByte with
      | (.byte r, t) => t.takeGroupByte r
      | (.busError, t) => t.abortStream
      | (.never, t) => t.hang
    else s.raiseFault .streamNotActive)

/-- STREAM_STOP (R187). -/
def execStreamStop (s : State) : Host.Outcome State Fault Refusal :=
  .next (s.accept fun s =>
    if s.strmActive then
      if s.strmIdx = 0 then { s.emit [.csDeassert] with strmActive := false }.answer .ok .nothing
      else s.raiseFault .stopMidGroup
    else s.answer .ok .nothing)

end Sys2Proof.Machine
end

