-- ==== Sys2Proof/Machine/Dispatch.lean ====
section
/-! DEFINITION. One arm per instruction. -/

namespace Sys2Proof.Machine

def exec (i : Instr) (s : State) : Host.Outcome State Fault Refusal :=
  match i with
  | .readByte addr => Sys2Proof.Machine.execReadByte addr s
  | .writeByte addr data => Sys2Proof.Machine.execWriteByte addr data s
  | .burnEeprom => Sys2Proof.Machine.execBurnEeprom s
  | .setZero => Sys2Proof.Machine.execSetZero s
  | .readAngleBurst => Sys2Proof.Machine.execReadAngleBurst s
  | .encode cmd addr data => Sys2Proof.Machine.execEncode cmd addr data s
  | .decode cmd ins => Sys2Proof.Machine.execDecode cmd ins s
  | .crc8 payload => Sys2Proof.Machine.execCrc8 payload s
  | .assemble b0 b1 b2 b3 => Sys2Proof.Machine.execAssemble b0 b1 b2 b3 s
  | .convert raw => Sys2Proof.Machine.execConvert raw s
  | .statusFlags status => Sys2Proof.Machine.execStatusFlags status s
  | .calDecode v => Sys2Proof.Machine.execCalDecode v s
  | .xfer cmd addr data => Sys2Proof.Machine.execXfer cmd addr data s
  | .readAngle => Sys2Proof.Machine.execReadAngle s
  | .streamStart => Sys2Proof.Machine.execStreamStart s
  | .streamByte => Sys2Proof.Machine.execStreamByte s
  | .streamStop => Sys2Proof.Machine.execStreamStop s
  | .reservedOp low => Sys2Proof.Machine.execReservedOp low s

end Sys2Proof.Machine
end

