-- ==== Sys2Proof/Machine/Fetch.lean ====
section
/-! DEFINITION. What the block takes up next from outside (10_state.md rules R23, R28, R29; 70_reset_and_hazards.md rules
R230, R232). -/

namespace Sys2Proof.Machine

/-- What one step is about. -/
inductive Fetched where
  /-- Nothing is presented: the block waits. -/
  | idle
  /-- A request waits for a slot that is never answered, and nothing that could end it comes. -/
  | stuck
  /-- An input that is no request has brought the block to this state. -/
  | became (t : State)
  /-- What is presented spells no request. -/
  | undecodable (e : DecodeError)
  /-- A request to run in this state. -/
  | run (i : Instr) (t : State)
  /-- A request to run in this state, with RST after its first n bus events. -/
  | runRst (i : Instr) (n : Nat) (t : State)
deriving DecidableEq, Repr

/-- Take the next input. A request is accepted only when none is running (R29). -/
def State.fetch (s : State) : Fetched :=
  match s.inputs with
  | [] => if s.busHung then .stuck else .idle
  | .lock level :: rest => .became { s with inputs := rest, pwrCycleLock := level }
  | .rst :: rest => .became { s with inputs := rest }.rst
  | .request bytes :: rest =>
    if s.busHung then .stuck
    else match decode bytes with
      | .ok i => .run i { s with inputs := rest }
      | .error e => .undecodable e
  | .requestRst bytes n :: rest =>
    if s.busHung then .stuck
    else match decode bytes with
      | .ok i => .runRst i n { s with inputs := rest }
      | .error e => .undecodable e

/-- The state in which the next thing presented is these bytes, and no request is running. -/
def State.present (s : State) (bytes : List Byte) : State :=
  { s with inputs := .request bytes :: s.inputs, busHung := false }

end Sys2Proof.Machine
end

