-- ==== Sys2Proof/Machine/Step.lean ====
section
/-! DEFINITION. One step: take the next input, and run the request if it is one (20_memory.md rule R59). -/

namespace Sys2Proof.Machine

/-- One step of the machine. -/
def step (s : State) : Host.Outcome State Fault Refusal :=
  match s.fetch with
  | .idle => .next s
  | .stuck => .fault .busNeverAnswers
  | .became t => .next t
  | .undecodable e => .refused (.undecodable e)
  | .run i t => exec i t
  | .runRst i n t =>
    match exec i t with
    | .next u => .next (t.cutAt u n)
    | .fault r => .fault r
    | .refused r => .refused r

/-- The state whose next step takes up the opcode-table word w of nbits bits (log entry 4). -/
def State.withFetchWord (s : State) (nbits w : Nat) : State := s.present (tableBytes nbits w)

end Sys2Proof.Machine
end

