-- ==== Sys2Proof/Machine/Pseudo.lean ====
section
/-! DEFINITION. The pseudo-operations of 30_encoding.md rule R84: sequences of requests the caller presents, "with no
semantics of their own". They are no step of the block; exec runs each request of them. -/

namespace Sys2Proof.Machine

/-- The requests a pseudo-operation spells before anything has been answered (R84). POLL_CAL's second request depends
on the byte the first one returns. -/
def Pseudo.requests : Pseudo → List Instr
  | .readB addr => [.xfer WireCmd.readByte.code addr 0]
  | .writeB addr data => [.xfer WireCmd.writeByte.code addr data]
  | .burn => [.xfer WireCmd.burnEeprom.code 0 0]
  | .setZero => [.xfer WireCmd.setZero.code 0 0]
  | .streamGroup => [.streamByte, .streamByte, .streamByte, .streamByte]
  | .pollCal => [.xfer WireCmd.readByte.code (Config.calReg.setWidth 16) 0]

/-- The result with which the request that took s to t returned status OK; none if it returned anything else, or
never returned. -/
def okResult (s t : State) : Option Result :=
  match t.responses.drop s.responses.length with
  | [.status .ok r] => some r
  | _ => none

/-- Requests in a row, stopping after the first that does not return status OK (R84). -/
def runRequests (s : State) : List Instr → Host.Outcome State Fault Refusal
  | [] => .next s
  | i :: rest =>
    match exec i s with
    | .next t => if (okResult s t).isSome then runRequests t rest else .next t
    | .fault r => .fault r
    | .refused r => .refused r

/-- A pseudo-operation (R84). -/
def runPseudo (p : Pseudo) (s : State) : Host.Outcome State Fault Refusal :=
  match runRequests s (Pseudo.requests p) with
  | .next t =>
    match p, okResult s t with
    | .pollCal, some (.byte v) => exec (.calDecode v) t
    | _, _ => .next t
  | .fault r => .fault r
  | .refused r => .refused r

end Sys2Proof.Machine
end

