-- ==== Sys2Proof/Machine/Text.lean ====
section
/-! DEFINITION. The textual form of a request (30_encoding.md rules R83 and R84): what a line of a request sequence
spells. Notation only: no step of the block reads it. -/

namespace Sys2Proof.Machine

/-- The pieces of a line. -/
inductive Tok where
  | word (cs : List Char)
  | num (n : Nat)
  | comma
  | lbracket
  | rbracket
deriving DecidableEq, Repr

/-- What one line spells. -/
inductive Line where
  /-- Nothing but blanks and a comment. -/
  | blank
  | request (i : Instr)
  | pseudo (p : Pseudo)
deriving DecidableEq, Repr

/-- The value of a digit, in decimal or hexadecimal. -/
def digitOf (base : Nat) (c : Char) : Option Nat :=
  let n := c.toNat
  let v :=
    if 48 ≤ n ∧ n ≤ 57 then n - 48
    else if 65 ≤ n ∧ n ≤ 70 then n - 55
    else if 97 ≤ n ∧ n ≤ 102 then n - 87
    else base
  if v < base then some v else none

/-- The number that digits spell after the value so far. -/
def digitsFrom (base : Nat) : Nat → List Char → Option Nat
  | acc, [] => some acc
  | acc, c :: cs => (digitOf base c).bind fun d => digitsFrom base (base * acc + d) cs

/-- A word or a number: "hexadecimal with 0x or decimal" (R83). -/
def tokenOf (cs : List Char) : Option Tok :=
  match cs with
  | '0' :: 'x' :: d :: ds => (digitsFrom 16 0 (d :: ds)).map .num
  | c :: rest =>
    match digitOf 10 c with
    | some _ => (digitsFrom 10 0 (c :: rest)).map .num
    | none => some (.word (c :: rest))
  | [] => none

/-- The token of the characters collected so far, if there are any, before the tokens that follow. -/
def flush (acc : List Char) (rest : Option (List Tok)) : Option (List Tok) :=
  match acc with
  | [] => rest
  | _ => (tokenOf acc.reverse).bind fun t => rest.map (t :: ·)

/-- The tokens of a line; `;` starts a comment (R83). -/
def tokens (acc : List Char) : List Char → Option (List Tok)
  | [] => flush acc (some [])
  | c :: cs =>
    if c = ';' then flush acc (some [])
    else if c = ' ' then flush acc (tokens [] cs)
    else if c = ',' then flush acc ((tokens [] cs).map (.comma :: ·))
    else if c = '[' then flush acc ((tokens [] cs).map (.lbracket :: ·))
    else if c = ']' then flush acc ((tokens [] cs).map (.rbracket :: ·))
    else tokens (c :: acc) cs

/-- An operand of w bits; a number that does not fit spells none (R82). -/
def field (w n : Nat) : Option (BitVec w) := if n < 2 ^ w then some (BitVec.ofNat w n) else none

/-- The mnemonic of a wire command (R71). -/
def WireCmd.mnemonic : WireCmd → List Char
  | .readByte => "READ_BYTE".toList
  | .writeByte => "WRITE_BYTE".toList
  | .burnEeprom => "BURN_EEPROM".toList
  | .setZero => "SET_ZERO".toList
  | .readAngleBurst => "READ_ANGLE_BURST".toList

/-- A cmd operand: "a wire mnemonic of rule R71 or a number" (R83). -/
def cmdOf : Tok → Option Cmd
  | .num n => field 4 n
  | .word cs =>
    ([.readByte, .writeByte, .burnEeprom, .setZero, .readAngleBurst].find?
      fun w => decide (WireCmd.mnemonic w = cs)).map WireCmd.code
  | _ => none

/-- The bytes of a vector after its first one, up to the closing bracket. -/
def vectorTail : List Tok → Option (List Byte)
  | [.rbracket] => some []
  | .comma :: .num n :: rest => (field 8 n).bind fun b => (vectorTail rest).map (b :: ·)
  | _ => none

/-- A byte vector [b0, b1, ...] (R83). -/
def vectorOf : List Tok → Option (List Byte)
  | [.lbracket, .rbracket] => some []
  | .lbracket :: .num n :: rest => (field 8 n).bind fun b => (vectorTail rest).map (b :: ·)
  | _ => none

/-- The operands cmd, addr and an optional data that defaults to 0x00 (R83). -/
def frameOperands : List Tok → Option (Cmd × Addr × Byte)
  | [c, .comma, .num a] => (cmdOf c).bind fun c => (field 16 a).map fun a => (c, a, 0)
  | [c, .comma, .num a, .comma, .num d] =>
    (cmdOf c).bind fun c => (field 16 a).bind fun a => (field 8 d).map fun d => (c, a, d)
  | _ => none

/-- One numeric operand of w bits. -/
def oneOperand (w : Nat) : List Tok → Option (BitVec w)
  | [.num n] => field w n
  | _ => none

/-- No operand. -/
def noOperand {α : Type} (a : α) : List Tok → Option α
  | [] => some a
  | _ => none

/-- The four bytes of ASSEMBLE. -/
def assembleOperands : List Tok → Option Instr
  | [.num a, .comma, .num b, .comma, .num c, .comma, .num d] =>
    (field 8 a).bind fun a => (field 8 b).bind fun b => (field 8 c).bind fun c =>
      (field 8 d).map fun d => .assemble a b c d
  | _ => none

/-- The operands of WRITEB. -/
def writeBOperands : List Tok → Option Pseudo
  | [.num a, .comma, .num d] => (field 16 a).bind fun a => (field 8 d).map fun d => .writeB a d
  | _ => none

/-- What a mnemonic and its operands spell: the forms of R83, then the pseudo-operations of R84. -/
def formOf (m : List Char) (ops : List Tok) : Option Line :=
  if m = "ENCODE".toList then (frameOperands ops).map fun o => .request (.encode o.1 o.2.1 o.2.2)
  else if m = "DECODE".toList then
    match ops with
    | c :: .comma :: v => (cmdOf c).bind fun c => (vectorOf v).map fun v => .request (.decode c v)
    | _ => none
  else if m = "CRC8".toList then (oneOperand 24 ops).map fun p => .request (.crc8 p)
  else if m = "ASSEMBLE".toList then (assembleOperands ops).map .request
  else if m = "CONVERT".toList then (oneOperand 21 ops).map fun r => .request (.convert r)
  else if m = "STATUS_FLAGS".toList then (oneOperand 3 ops).map fun st => .request (.statusFlags st)
  else if m = "CAL_DECODE".toList then (oneOperand 8 ops).map fun v => .request (.calDecode v)
  else if m = "XFER".toList then (frameOperands ops).map fun o => .request (.xfer o.1 o.2.1 o.2.2)
  else if m = "READ_ANGLE".toList then noOperand (.request .readAngle) ops
  else if m = "STREAM_START".toList then noOperand (.request .streamStart) ops
  else if m = "STREAM_BYTE".toList then noOperand (.request .streamByte) ops
  else if m = "STREAM_STOP".toList then noOperand (.request .streamStop) ops
  else if m = "READB".toList then (oneOperand 16 ops).map fun a => .pseudo (.readB a)
  else if m = "WRITEB".toList then (writeBOperands ops).map .pseudo
  else if m = "BURN".toList then noOperand (.pseudo .burn) ops
  else if m = "SETZERO".toList then noOperand (.pseudo .setZero) ops
  else if m = "STREAM_GROUP".toList then noOperand (.pseudo .streamGroup) ops
  else if m = "POLL_CAL".toList then noOperand (.pseudo .pollCal) ops
  else none

/-- What one line of a request sequence spells; none if it has no form of R83 or R84. -/
def parseLine (cs : List Char) : Option Line :=
  match tokens [] cs with
  | some [] => some .blank
  | some (.word m :: ops) => formOf m ops
  | _ => none

end Sys2Proof.Machine
end

