-- ==== Sys2Proof/Safety.lean ====
section
/-! DEFINITION. What claims call a good state and a legal bus trace (10_state.md rules R25, R27; 30_encoding.md rules
R70 to R79; 60_exceptions.md rule R205). -/

namespace Sys2Proof.Safety

open Sys2Proof.Machine

/-- Out-bytes that begin a frame of a wire command (R73, R75): the slots so far of a frame that may go on, end, or be
cut short. READ_BYTE, WRITE_BYTE, BURN_EEPROM and SET_ZERO have at most 3 slots; a burst has no end of its own. -/
def legalOuts : List Byte → Bool
  | [] => true
  | o0 :: rest =>
    match WireCmd.ofCode (hiNibble o0) with
    | none => false
    | some .readByte => decide (rest.length ≤ 2) && (rest.drop 1).all (· == Config.dummyByte)
    | some .writeByte => decide (rest.length ≤ 2)
    | some .burnEeprom => loNibble o0 == 0 && decide (rest.length ≤ 2) && rest.all (· == Config.dummyByte)
    | some .setZero => loNibble o0 == 0 && decide (rest.length ≤ 2) && rest.all (· == Config.dummyByte)
    | some .readAngleBurst =>
      loNibble o0 == 0 &&
        match rest with
        | [] => true
        | o1 :: slots => o1 == 0x03 && slots.all (· == Config.dummyByte)

/-- What the bus shows after some events. -/
inductive BusLine where
  /-- No frame is open. -/
  | idle
  /-- A frame is open and these out-bytes have been sent in it. -/
  | frame (outs : List Byte)
  /-- A frame is open whose last slot failed with BusError: only CS_DEASSERT may follow (R103). -/
  | failed
  /-- The trace has broken a rule of R27, R79 or R103. -/
  | broken
deriving DecidableEq, Repr

/-- One more out-byte in a frame. -/
def sendOut (outs : List Byte) (o : Byte) (after : BusLine) : BusLine :=
  if legalOuts (outs ++ [o]) then after else .broken

/-- The bus after one more event. -/
def BusLine.next : BusLine → BusEvent → BusLine
  | .idle, .csAssert => .frame []
  | .frame outs, .xchg o _ => sendOut outs o (.frame (outs ++ [o]))
  | .frame outs, .xchgError o => sendOut outs o .failed
  | .frame _, .csDeassert => .idle
  | .failed, .csDeassert => .idle
  | _, _ => .broken

/-- The bus after a trace. -/
def busLine (trace : List BusEvent) : BusLine := trace.foldl BusLine.next .idle

/-- The out-bytes of an open burst frame with n slots after its header (R75). -/
def burstOuts (n : Nat) : List Byte := 0xA0 :: 0x03 :: List.replicate n Config.dummyByte

/-- R25(a): no stream, no partial group. -/
def AlignerIdle (s : State) : Prop := s.strmActive = false → s.strmIdx = 0

/-- R25(c) and R202: the fault code is 0 exactly when there is no fault, and is never one of the reserved 8 to 15. -/
def FaultRecord (s : State) : Prop := (s.fault = false ↔ s.faultCause = 0) ∧ s.faultCause.toNat ≤ 7

/-- R25(b), R27, R75, R79: the trace is legal, the chip-select is asserted exactly when a stream is open or a request
hangs in a slot, and an open stream has sent its header and as many slots as makes its current group's index. -/
def BusAgrees (s : State) : Prop :=
  if s.strmActive then
    ∃ n, busLine s.trace = .frame (burstOuts n) ∧ n % 4 = s.strmIdx.toNat
  else if s.busHung then ∃ outs, busLine s.trace = .frame outs
  else busLine s.trace = .idle

/-- The invariants of R25 with the bus trace they speak of. -/
structure BlockInv (s : State) : Prop where
  aligner : AlignerIdle s
  faultRecord : FaultRecord s
  bus : BusAgrees s

/-- A state that a claim of correct behaviour may end in: "a model treats a state with s.fault = 1 as faulted and never
final" (R21, R205); no request is running and none is left. -/
def Final (s : State) : Prop := s.fault = false ∧ s.busHung = false ∧ s.inputs = []

/-! What statements say about the environment and about requests. -/

/-- The next slots will be answered with these bytes, in this order (R28). -/
abbrev Answered (s : State) (ins : List Byte) : Prop :=
  (List.range ins.length).map s.slotAnswer = ins.map SlotAnswer.byte

/-- The requests that act on the bus only by opening a frame: check 5 of R206 applies to them (R207). -/
def opensBus : Instr → Bool
  | .readByte _ | .writeByte _ _ | .burnEeprom | .setZero | .readAngleBurst
  | .xfer _ _ _ | .readAngle | .streamStart => true
  | .encode _ _ _ | .decode _ _ | .crc8 _ | .assemble _ _ _ _ | .convert _ | .statusFlags _ | .calDecode _
  | .streamByte | .streamStop | .reservedOp _ => false

/-- The requests that never touch the bus (R207: "pure operations"), and the reserved ops (R81). -/
def touchesNoBus : Instr → Bool
  | .encode _ _ _ | .decode _ _ | .crc8 _ | .assemble _ _ _ _ | .convert _ | .statusFlags _ | .calDecode _
  | .reservedOp _ => true
  | .readByte _ | .writeByte _ _ | .burnEeprom | .setZero | .readAngleBurst
  | .xfer _ _ _ | .readAngle | .streamStart | .streamByte | .streamStop => false

/-- The requests that may write the stream aligner (R22). -/
def writesAligner : Instr → Bool
  | .readAngleBurst | .streamStart | .streamByte | .streamStop => true
  | .encode _ _ _ | .decode _ _ | .crc8 _ | .assemble _ _ _ _ | .convert _ | .statusFlags _ | .calDecode _
  | .reservedOp _ | .readByte _ | .writeByte _ _ | .burnEeprom | .setZero | .xfer _ _ _ | .readAngle => false

/-- The five command values of R71. -/
def knownCmd (c : Cmd) : Bool := [0x3, 0x6, 0xC, 0x5, 0xA].contains c

/-- The address check of READ_BYTE and WRITE_BYTE fails (R57). -/
def addrFault (c : Cmd) (addr : Addr) : Bool := (c == 0x3 || c == 0x6) && decide (4096 ≤ addr.toNat)

/-- The fault code of a transfer (R202, R206): IllegalCmd, AddressRange, BusBusy, in this order. -/
def transferFault (c : Cmd) (addr : Addr) (s : State) : Option (BitVec 4) :=
  if !knownCmd c || c == 0xA then some 2
  else if addrFault c addr then some 3
  else if s.strmActive then some 5
  else none

/-- The contract fault of a request presented to a block that is not halted: the table of R202 in the order of R206. -/
def contractFault (i : Instr) (s : State) : Option (BitVec 4) :=
  match i with
  | .reservedOp _ => some 1
  | .encode c addr _ => if !knownCmd c then some 2 else if addrFault c addr then some 3 else none
  | .decode c ins =>
    if !knownCmd c then some 2
    else if c == 0xA then (if ins.length < 2 ∨ (ins.length - 2) % 4 ≠ 0 then some 4 else none)
    else if ins.length ≠ 3 then some 4
    else none
  | .xfer c addr _ => transferFault c addr s
  | .readByte addr => transferFault 0x3 addr s
  | .writeByte addr _ => transferFault 0x6 addr s
  | .burnEeprom => transferFault 0xC 0 s
  | .setZero => transferFault 0x5 0 s
  | .readAngle | .readAngleBurst | .streamStart => if s.strmActive then some 5 else none
  | .streamByte => if s.strmActive then none else some 6
  | .streamStop => if s.strmActive ∧ s.strmIdx ≠ 0 then some 7 else none
  | .crc8 _ | .assemble _ _ _ _ | .convert _ | .statusFlags _ | .calDecode _ => none

/-- The requests that send one three-slot frame, with the out-bytes R73 gives each. The address operand is read, and so
in range, for READ_BYTE and WRITE_BYTE alone; for the others every value of it is the same (R82). -/
inductive SendsFrame : Instr → List Byte → Prop where
  | xferReadByte (addr : Addr) (data : Byte) (inRange : addr.toNat < 4096) :
      SendsFrame (.xfer 0x3 addr data)
        [BitVec.ofNat 8 (0x30 + addr.toNat / 256), BitVec.ofNat 8 (addr.toNat % 256), 0x00]
  | xferWriteByte (addr : Addr) (data : Byte) (inRange : addr.toNat < 4096) :
      SendsFrame (.xfer 0x6 addr data)
        [BitVec.ofNat 8 (0x60 + addr.toNat / 256), BitVec.ofNat 8 (addr.toNat % 256), data]
  | xferBurnEeprom (addr : Addr) (data : Byte) : SendsFrame (.xfer 0xC addr data) [0xC0, 0x00, 0x00]
  | xferSetZero (addr : Addr) (data : Byte) : SendsFrame (.xfer 0x5 addr data) [0x50, 0x00, 0x00]
  | readByte (addr : Addr) (inRange : addr.toNat < 4096) :
      SendsFrame (.readByte addr)
        [BitVec.ofNat 8 (0x30 + addr.toNat / 256), BitVec.ofNat 8 (addr.toNat % 256), 0x00]
  | writeByte (addr : Addr) (data : Byte) (inRange : addr.toNat < 4096) :
      SendsFrame (.writeByte addr data)
        [BitVec.ofNat 8 (0x60 + addr.toNat / 256), BitVec.ofNat 8 (addr.toNat % 256), data]
  | burnEeprom : SendsFrame .burnEeprom [0xC0, 0x00, 0x00]
  | setZero : SendsFrame .setZero [0x50, 0x00, 0x00]

/-- The events of a whole frame that sends `outs` and receives `ins` (R27, R102). -/
def frameEvents (outs ins : List Byte) : List BusEvent :=
  .csAssert :: List.zipWith BusEvent.xchg outs ins ++ [.csDeassert]

/-- The out-bytes of the j-th frame of READ_ANGLE (R166). -/
def angleOuts (j : Nat) : List Byte := [0x30, BitVec.ofNat 8 (0x03 + j), 0x00]

/-- Two states that agree in every field but for bytes of s.strm_buf at or above s.strm_idx (R22). -/
def AgreeUpToBuffer (s t : State) : Prop :=
  t = { s with strmBuf0 := t.strmBuf0, strmBuf1 := t.strmBuf1, strmBuf2 := t.strmBuf2 } ∧
  (1 ≤ s.strmIdx.toNat → t.strmBuf0 = s.strmBuf0) ∧
  (2 ≤ s.strmIdx.toNat → t.strmBuf1 = s.strmBuf1) ∧
  (3 ≤ s.strmIdx.toNat → t.strmBuf2 = s.strmBuf2)

/-- The CRC check of a 32-bit angle frame, bit 31 being B0 bit 7 (R77, R150). -/
def frameValid (f : BitVec 32) : Bool :=
  (assemble (f.extractLsb' 24 8) (f.extractLsb' 16 8) (f.extractLsb' 8 8) (f.extractLsb' 0 8)).crcValid

/-- The number that the fields of an IEEE 754 binary format stand for, infinities and NaNs apart (93 I19). -/
def ieeeValue (fracBits bias : Nat) (sign : Bool) (e f : Nat) : ℚ :=
  (if sign then -1 else 1) * ((if e = 0 then (f : ℚ) else 2 ^ fracBits + f) * 2 ^ max e 1 / 2 ^ (bias + fracBits))

/-- The value of a finite binary64. -/
def binary64Value (b : BitVec 64) : ℚ :=
  ieeeValue 52 1023 b.msb (b.extractLsb' 52 11).toNat (b.extractLsb' 0 52).toNat

/-- The value of a finite binary32. -/
def binary32Value (b : BitVec 32) : ℚ :=
  ieeeValue 23 127 b.msb (b.extractLsb' 23 8).toNat (b.extractLsb' 0 23).toNat

/-- The number of degrees that an angleDegrees of R159 stands for, a finite float output assumed. -/
def degreesValue : AngleDegrees → ℚ
  | .fixed degQ => (degQ.toNat : ℚ) / 2 ^ 18
  | .binary32 bits => binary32Value bits
  | .binary64 bits => binary64Value bits

/-- A binary64 that is neither an infinity nor a NaN. -/
def binary64Finite (b : BitVec 64) : Bool := b.extractLsb' 52 11 != 2047

/-- A binary32 that is neither an infinity nor a NaN. -/
def binary32Finite (b : BitVec 32) : Bool := b.extractLsb' 23 8 != 255

end Sys2Proof.Safety
end

