-- ==== Sys2Proof/Certificates/Slice0/Obligations.lean ====
section
/-! DEFINITION. The statements for the provers. Each docstring names the rules of spec/ the statement formalises. The
next states are written as whole records, so that every statement of an effect is also a statement of its frame. -/

open Sys2Proof Sys2Proof.Machine Sys2Proof.Safety

/-! ## Reset and the step -/

/-- R32: the reset value of every field of the block, in the state right after reset and after RST; PWR_CYCLE_LOCK is
not affected by block reset. -/
def Obligations.ResetFieldValues : Prop :=
  (∀ s : State, s.rst.fault = false ∧ s.rst.faultCause = 0 ∧ s.rst.strmActive = false ∧ s.rst.strmIdx = 0 ∧
    s.rst.strmBuf0 = 0 ∧ s.rst.strmBuf1 = 0 ∧ s.rst.strmBuf2 = 0 ∧ s.rst.pwrCycleLock = s.pwrCycleLock) ∧
  State.reset.fault = false ∧ State.reset.faultCause = 0 ∧ State.reset.strmActive = false ∧
  State.reset.strmIdx = 0 ∧ State.reset.strmBuf0 = 0 ∧ State.reset.strmBuf1 = 0 ∧ State.reset.strmBuf2 = 0

/-- R230: RST between requests closes an open burst frame and resets the fields, whatever the state; the next request
is then accepted. -/
def Obligations.RstBetweenRequests : Prop :=
  ∀ (s : State) (rest : List Input), s.inputs = .rst :: rest → s.busHung = false →
    ∃ t : State, step s = .next t ∧
      t = { s with
        inputs := rest, fault := false, faultCause := 0, strmActive := false, strmIdx := 0
        strmBuf0 := 0, strmBuf1 := 0, strmBuf2 := 0
        trace := s.trace ++ (if s.strmActive then [.csDeassert] else []) } ∧
      ∀ (bytes : List Byte) (i : Instr) (more : List Input), rest = .request bytes :: more → decode bytes = .ok i →
        step t = exec i { t with inputs := more }

/-- R232: RST while a request runs. First clause: RST after the first n bus events of a request that would have emitted
`emitted`: exactly those n stay, an asserted chip-select is deasserted, there is no response, and the fields are reset.
Second clause: RST while a request waits for a slot that is never answered. The model's own: that RST lands after the n-th
bus event (DEDUCED, log entry 5), that a waiting request always gets a CS_DEASSERT (DEDUCED, log entry 2), and that there
is one CS_DEASSERT inside an open stream too (DESIGN CHOICE, log entry 15). -/
def Obligations.RstInsideRequest : Prop :=
  (∀ (s u : State) (bytes : List Byte) (n : Nat) (rest : List Input) (i : Instr) (emitted : List BusEvent),
    s.busHung = false → s.inputs = .requestRst bytes n :: rest → decode bytes = .ok i →
    exec i { s with inputs := rest } = .next u → u.trace = s.trace ++ emitted →
    ∃ t, step s = .next t ∧ t.responses = s.responses ∧ t.inputs = rest ∧ t.pwrCycleLock = s.pwrCycleLock ∧
      t.trace = s.trace ++ emitted.take n ++
        (if csAsserted (s.trace ++ emitted.take n) then [.csDeassert] else []) ∧
      t.fault = false ∧ t.faultCause = 0 ∧ t.strmActive = false ∧ t.strmIdx = 0 ∧
      t.strmBuf0 = 0 ∧ t.strmBuf1 = 0 ∧ t.strmBuf2 = 0 ∧ t.busHung = false) ∧
  (∀ (s : State) (rest : List Input), s.inputs = .rst :: rest → s.busHung = true →
    step s = .next { s with
      inputs := rest, fault := false, faultCause := 0, strmActive := false, strmIdx := 0
      strmBuf0 := 0, strmBuf1 := 0, strmBuf2 := 0, busHung := false
      trace := s.trace ++ [.csDeassert] })

/-- R29, R59: when the bytes presented next spell an instruction and no request is running, the step is `exec` of that
instruction at the state with that input consumed. Bytes that spell none are refused with the decoder's reason, with or
without RST to come (R79 for the reserved wire opcodes; the rest is the model's choice, log entry 6); with nothing
presented the block waits (the model's choice, log entry 4). -/
def Obligations.StepRunsPresentedRequest : Prop :=
  (∀ (s : State) (bytes : List Byte) (rest : List Input) (i : Instr),
    s.busHung = false → s.inputs = .request bytes :: rest → decode bytes = .ok i →
    step s = exec i { s with inputs := rest }) ∧
  (∀ (s : State) (bytes : List Byte) (n : Nat) (rest : List Input) (e : DecodeError),
    s.busHung = false → s.inputs = .request bytes :: rest ∨ s.inputs = .requestRst bytes n :: rest →
    decode bytes = .error e → step s = .refused (.undecodable e)) ∧
  (∀ s : State, s.busHung = false → s.inputs = [] → step s = .next s)

/-- R23: PWR_CYCLE_LOCK takes the level the external controller drives, and no request writes it (nor the inputs). -/
def Obligations.LockIsOnlyAnInput : Prop :=
  (∀ (s : State) (level : Bool) (rest : List Input), s.inputs = .lock level :: rest →
    step s = .next { s with inputs := rest, pwrCycleLock := level }) ∧
  (∀ (i : Instr) (s t : State), exec i s = .next t → t.pwrCycleLock = s.pwrCycleLock ∧ t.inputs = s.inputs)

/-- R28: a request whose slot is never answered never returns, and the block makes no step of its own. The model's step
answers the fault busNeverAnswers in exactly those states where such a request waits and neither RST (R232) nor a level of
the lock comes next; that both are taken while a request waits is the model's (DEDUCED, log entry 2). -/
def Obligations.UnansweredSlotHasNoStep : Prop :=
  ∀ s : State, step s = .fault .busNeverAnswers ↔
    s.busHung = true ∧ ∀ inp rest, s.inputs = inp :: rest → inp ≠ .rst ∧ ∀ level, inp ≠ .lock level

/-! ## Outcomes, faults and priority -/

/-- R205: a halted block answers every request with FAULT(s.fault_cause), emits nothing and writes nothing. -/
def Obligations.HaltedBlockAnswersFault : Prop :=
  ∀ (i : Instr) (s : State), s.fault = true →
    exec i s = .next { s with responses := s.responses ++ [.fault s.faultCause] }

/-- R21: the fault record is written only by raising a fault and by reset, and once it is set no request changes a
field of the block (nor the trace) until reset; such a state is never final. -/
def Obligations.FaultStaysUntilReset : Prop :=
  (∀ (i : Instr) (s t : State), exec i s = .next t → (t.fault ≠ s.fault ∨ t.faultCause ≠ s.faultCause) →
    s.fault = false ∧ t.fault = true ∧ t.responses = s.responses ++ [.fault t.faultCause]) ∧
  (∀ s t : State, s.fault = true → step s = .next t →
    (∀ rest, s.inputs ≠ .rst :: rest) → (∀ bytes n rest, s.inputs ≠ .requestRst bytes n :: rest) →
    t.fault = true ∧ t.faultCause = s.faultCause ∧ t.strmActive = s.strmActive ∧ t.strmIdx = s.strmIdx ∧
    t.strmBuf0 = s.strmBuf0 ∧ t.strmBuf1 = s.strmBuf1 ∧ t.strmBuf2 = s.strmBuf2 ∧ t.trace = s.trace ∧ ¬ Final t)

/-- R202, R204, and checks 1 to 4 of R206: a block that is not halted raises exactly the fault of the table of R202, the
first in the order of R206. Raising it sets the two fields of the fault record, answers FAULT(cause), and does nothing
else at all: no bus event, no other field, no slot taken. A request with no such fault leaves the record as it was. -/
def Obligations.FaultRaisedExactlyByCause : Prop :=
  ∀ (i : Instr) (s : State), s.fault = false →
    match contractFault i s with
    | some code => exec i s = .next { s with
        fault := true, faultCause := code, responses := s.responses ++ [.fault code] }
    | none => ∃ t, exec i s = .next t ∧ t.fault = false ∧ t.faultCause = s.faultCause

/-- R81: every reserved op raises ReservedOp, changes nothing else and emits no bus event. -/
def Obligations.ReservedOpRaisesFault : Prop :=
  ∀ (low : BitVec 2) (s : State), s.fault = false →
    exec (.reservedOp low) s = .next { s with
      fault := true, faultCause := 1, responses := s.responses ++ [.fault 1] }

/-- R29, R200: a request that returns gives exactly one response; one that never returns gives none. -/
def Obligations.OneResponsePerRequest : Prop :=
  ∀ (i : Instr) (s : State), s.busHung = false →
    ∃ t, exec i s = .next t ∧
      ((t.busHung = true ∧ t.responses = s.responses) ∨
       (t.busHung = false ∧ ∃ r, t.responses = s.responses ++ [r]))

/-- R207: with the lock set, a request that would open a frame and has no contract fault returns PowerCycleRequired
with no bus event and no state change; every other request does the same whatever the lock. -/
def Obligations.LockRefusesBusRequests : Prop :=
  (∀ (i : Instr) (s : State), s.fault = false → opensBus i = true → contractFault i s = none →
    s.pwrCycleLock = true →
    exec i s = .next { s with responses := s.responses ++ [.status .powerCycleRequired .nothing] }) ∧
  (∀ (i : Instr) (s t : State) (level : Bool), opensBus i = false → exec i s = .next t →
    exec i { s with pwrCycleLock := level } = .next { t with pwrCycleLock := level })

/-! ## Invariants and frames -/

/-- The state right after reset meets the invariants of R25 (the chip-select read from the trace). -/
def Obligations.ResetMeetsInvariants : Prop := BlockInv State.reset

/-- R25, R27, R75, R79, R103: every step keeps the invariants: no partial group without a stream; fault code 0 exactly
without a fault, and never a reserved code; the bus trace is legal (no CS_ASSERT inside a frame, only frames of the five
commands, nothing but CS_DEASSERT after a failed slot); the chip-select is asserted exactly when a stream is open or a
request hangs; an open stream has sent its header and whole groups plus s.strm_idx slots. That RST inside an open stream leaves
a legal trace rests on its one CS_DEASSERT (DESIGN CHOICE, log entry 15). -/
def Obligations.StepKeepsInvariants : Prop :=
  ∀ s t : State, BlockInv s → step s = .next t → BlockInv t

/-- R59, of bus events: they are only ever appended, and nothing already emitted is changed, removed or reordered. That
responses are kept beside them, and that RST shortens neither list, is the model's record of what it has shown (DESIGN
CHOICE, log entry 12). -/
def Obligations.StepOnlyAppends : Prop :=
  ∀ s t : State, step s = .next t → s.trace <+: t.trace ∧ s.responses <+: t.responses

/-- R207 ("they touch no bus"), R104, R133: ENCODE, DECODE, CRC8, ASSEMBLE, CONVERT, STATUS_FLAGS, CAL_DECODE and the
reserved ops change nothing but the fault record and the responses. -/
def Obligations.PureRequestsFrame : Prop :=
  ∀ (i : Instr) (s t : State), touchesNoBus i = true → exec i s = .next t →
    t = { s with fault := t.fault, faultCause := t.faultCause, responses := t.responses }

/-- R22, first sentence, and R102, R166: READ_BYTE, WRITE_BYTE, BURN_EEPROM, SET_ZERO, XFER, READ_ANGLE and the pure
requests leave the stream aligner as it was, and change nothing of the block but the fault record. -/
def Obligations.OnlyStreamRequestsWriteAligner : Prop :=
  ∀ (i : Instr) (s t : State), writesAligner i = false → exec i s = .next t →
    t = { s with
      fault := t.fault, faultCause := t.faultCause, answers := t.answers, draws := t.draws
      busHung := t.busHung, trace := t.trace, responses := t.responses }

/-- R22: s.strm_buf[k] is read only when s.strm_idx > k. Two states that differ only in bytes of the buffer at or above
the index make the same step, with the same events and responses, to two such states again. -/
def Obligations.UnreadBufferIsUnobservable : Prop :=
  ∀ s t : State, AgreeUpToBuffer s t →
    match step s, step t with
    | .next s', .next t' => AgreeUpToBuffer s' t'
    | .fault a, .fault b => a = b
    | .refused a, .refused b => a = b
    | _, _ => False

/-! ## Codec -/

/-- R72: the header is {opc, addr} in two bytes, the high byte first. -/
def Obligations.HeaderSplit : Prop :=
  ∀ (opc : Cmd) (addr : RegAddr),
    header opc addr =
      [BitVec.ofNat 8 (opc.toNat * 16 + addr.toNat / 256), BitVec.ofNat 8 (addr.toNat % 256)]

/-- R100: ENCODE, for every command value, address and data. -/
def Obligations.EncodeBuildsFrame : Prop :=
  ∀ (addr : Addr) (data : Byte) (s : State), s.fault = false →
    let hi : Nat := addr.toNat / 256
    let lo : Byte := BitVec.ofNat 8 (addr.toNat % 256)
    let ok (out : List Byte) : Host.Outcome State Fault Refusal :=
      .next { s with responses := s.responses ++ [.status .ok (.bytes out)] }
    let fails (code : BitVec 4) : Host.Outcome State Fault Refusal :=
      .next { s with fault := true, faultCause := code, responses := s.responses ++ [.fault code] }
    (addr.toNat < 4096 →
      exec (.encode 0x3 addr data) s = ok [BitVec.ofNat 8 (0x30 + hi), lo, 0x00] ∧
      exec (.encode 0x6 addr data) s = ok [BitVec.ofNat 8 (0x60 + hi), lo, data]) ∧
    (4096 ≤ addr.toNat → exec (.encode 0x3 addr data) s = fails 3 ∧ exec (.encode 0x6 addr data) s = fails 3) ∧
    exec (.encode 0xC addr data) s = ok [0xC0, 0x00, 0x00] ∧
    exec (.encode 0x5 addr data) s = ok [0x50, 0x00, 0x00] ∧
    exec (.encode 0xA addr data) s = ok [0xA0, 0x03] ∧
    ∀ cmd, cmd ∉ ([0x3, 0x6, 0xC, 0x5, 0xA] : List Cmd) → exec (.encode cmd addr data) s = fails 2

/-- R101, R112, R115, R118, R121: DECODE, for every command value and in-bytes of every length. -/
def Obligations.DecodeReadsReply : Prop :=
  ∀ s : State, s.fault = false →
    let ends (st : Status) (r : Result) : Host.Outcome State Fault Refusal :=
      .next { s with responses := s.responses ++ [.status st r] }
    let fails (code : BitVec 4) : Host.Outcome State Fault Refusal :=
      .next { s with fault := true, faultCause := code, responses := s.responses ++ [.fault code] }
    (∀ i0 i1 i2 : Byte,
      exec (.decode 0x3 [i0, i1, i2]) s = ends .ok (.byte i2) ∧
      exec (.decode 0x6 [i0, i1, i2]) s = ends .ok .nothing ∧
      exec (.decode 0xC [i0, i1, i2]) s = ends (if i2 = 0x55 then .ok else .commandNotAcknowledged) .nothing ∧
      exec (.decode 0x5 [i0, i1, i2]) s = ends (if i2 = 0x55 then .ok else .commandNotAcknowledged) .nothing) ∧
    (∀ (h0 h1 : Byte) (quads : List (Byte × Byte × Byte × Byte)),
      exec (.decode 0xA (h0 :: h1 :: quads.flatMap fun q => [q.1, q.2.1, q.2.2.1, q.2.2.2])) s =
        ends .ok (.samples (quads.map fun q => assemble q.1 q.2.1 q.2.2.1 q.2.2.2))) ∧
    (∀ ins : List Byte, ins.length ≠ 3 →
      exec (.decode 0x3 ins) s = fails 4 ∧ exec (.decode 0x6 ins) s = fails 4 ∧
      exec (.decode 0xC ins) s = fails 4 ∧ exec (.decode 0x5 ins) s = fails 4) ∧
    (∀ ins : List Byte, ins.length < 2 ∨ (ins.length - 2) % 4 ≠ 0 → exec (.decode 0xA ins) s = fails 4) ∧
    ∀ cmd ins, cmd ∉ ([0x3, 0x6, 0xC, 0x5, 0xA] : List Cmd) → exec (.decode cmd ins) s = fails 2

/-- R102: XFER completes, for each of its four commands: one frame of three slots with the out-bytes of R73, and the
reply of R74. -/
def Obligations.XferCompletes : Prop :=
  ∀ (addr : Addr) (data i0 i1 i2 : Byte) (s : State),
    s.fault = false → s.strmActive = false → s.pwrCycleLock = false → Answered s [i0, i1, i2] →
    let sent (o0 o1 o2 : Byte) (st : Status) (r : Result) : Host.Outcome State Fault Refusal :=
      .next { s.skipSlots 3 with
        trace := s.trace ++ [.csAssert, .xchg o0 i0, .xchg o1 i1, .xchg o2 i2, .csDeassert]
        responses := s.responses ++ [.status st r] }
    (addr.toNat < 4096 →
      exec (.xfer 0x3 addr data) s =
        sent (BitVec.ofNat 8 (0x30 + addr.toNat / 256)) (BitVec.ofNat 8 (addr.toNat % 256)) 0x00 .ok (.byte i2) ∧
      exec (.xfer 0x6 addr data) s =
        sent (BitVec.ofNat 8 (0x60 + addr.toNat / 256)) (BitVec.ofNat 8 (addr.toNat % 256)) data .ok .nothing) ∧
    exec (.xfer 0xC addr data) s =
      sent 0xC0 0x00 0x00 (if i2 = 0x55 then .ok else .commandNotAcknowledged) .nothing ∧
    exec (.xfer 0x5 addr data) s =
      sent 0x50 0x00 0x00 (if i2 = 0x55 then .ok else .commandNotAcknowledged) .nothing

/-- R110, R111: READ_BYTE completes with the byte of slot 2, at every address of 12 bits. -/
def Obligations.ReadByteCompletes : Prop :=
  ∀ (addr : Addr) (i0 i1 i2 : Byte) (s : State), addr.toNat < 4096 →
    s.fault = false → s.strmActive = false → s.pwrCycleLock = false → Answered s [i0, i1, i2] →
    exec (.readByte addr) s = .next { s.skipSlots 3 with
      trace := s.trace ++ [.csAssert, .xchg (BitVec.ofNat 8 (0x30 + addr.toNat / 256)) i0,
        .xchg (BitVec.ofNat 8 (addr.toNat % 256)) i1, .xchg 0x00 i2, .csDeassert]
      responses := s.responses ++ [.status .ok (.byte i2)] }

/-- R113, R114: WRITE_BYTE completes with nothing, at every address of 12 bits, whatever the in-bytes. -/
def Obligations.WriteByteCompletes : Prop :=
  ∀ (addr : Addr) (data i0 i1 i2 : Byte) (s : State), addr.toNat < 4096 →
    s.fault = false → s.strmActive = false → s.pwrCycleLock = false → Answered s [i0, i1, i2] →
    exec (.writeByte addr data) s = .next { s.skipSlots 3 with
      trace := s.trace ++ [.csAssert, .xchg (BitVec.ofNat 8 (0x60 + addr.toNat / 256)) i0,
        .xchg (BitVec.ofNat 8 (addr.toNat % 256)) i1, .xchg data i2, .csDeassert]
      responses := s.responses ++ [.status .ok .nothing] }

/-- R105, R116, R117, R119, R120: BURN_EEPROM and SET_ZERO complete with OK when slot 2 answers 0x55, and with
CommandNotAcknowledged otherwise. -/
def Obligations.AcknowledgedCommandsComplete : Prop :=
  ∀ (i0 i1 i2 : Byte) (s : State),
    s.fault = false → s.strmActive = false → s.pwrCycleLock = false → Answered s [i0, i1, i2] →
    let sent (o0 : Byte) : Host.Outcome State Fault Refusal :=
      .next { s.skipSlots 3 with
        trace := s.trace ++ [.csAssert, .xchg o0 i0, .xchg 0x00 i1, .xchg 0x00 i2, .csDeassert]
        responses := s.responses ++
          [.status (if i2 = 0x55 then .ok else .commandNotAcknowledged) .nothing] }
    exec .burnEeprom s = sent 0xC0 ∧ exec .setZero s = sent 0x50

/-- R103: in XFER and the four three-slot commands, the slot that fails with BusError is the last one sent, CS_DEASSERT
follows, and the status is BusError with no result; XFER of BURN_EEPROM and SET_ZERO at every address operand (R82). -/
def Obligations.BusErrorEndsTransfer : Prop :=
  ∀ (i : Instr) (out ins : List Byte) (s : State), SendsFrame i out →
    s.fault = false → s.strmActive = false → s.pwrCycleLock = false →
    ins.length < 3 → Answered s ins → s.slotAnswer ins.length = .busError →
    exec i s = .next { s.skipSlots (ins.length + 1) with
      trace := s.trace ++ .csAssert :: List.zipWith BusEvent.xchg out ins ++
        [.xchgError (out.getD ins.length 0), .csDeassert]
      responses := s.responses ++ [.status .busError .nothing] }

/-- R104: what XFER answers and emits depends only on its operands, the lock, whether a stream is open, and the answers of
three slots: two states with no fault may differ in everything else. -/
def Obligations.XferDependsOnThreeSlots : Prop :=
  ∀ (cmd : Cmd) (addr : Addr) (data : Byte) (s t s' t' : State),
    s.fault = false → t.fault = false → s.pwrCycleLock = t.pwrCycleLock → s.strmActive = t.strmActive →
    (∀ k, k < 3 → s.slotAnswer k = t.slotAnswer k) →
    exec (.xfer cmd addr data) s = .next s' → exec (.xfer cmd addr data) t = .next t' →
    s'.responses.drop s.responses.length = t'.responses.drop t.responses.length ∧
    s'.trace.drop s.trace.length = t'.trace.drop t.trace.length

/-! ## CRC-8 -/

/-- R133: CRC8 answers the crc8 of its payload, for every payload. -/
def Obligations.Crc8Answers : Prop :=
  ∀ (p : Payload) (s : State), s.fault = false →
    exec (.crc8 p) s = .next { s with responses := s.responses ++ [.status .ok (.byte (crc8 p))] } ∧
    crc8 0x000000 = 0x00 ∧ crc8 0xFFFFFF = 0x0F ∧ crc8 0x000001 = 0x07 ∧ crc8 0x800000 = 0x0B ∧
    crc8 0x123456 = 0x7C

/-- R134: crc8 is linear over GF(2). -/
def Obligations.CrcIsLinear : Prop := ∀ a b : Payload, crc8 (a ^^^ b) = crc8 a ^^^ crc8 b

/-- R132: the byte-wise form agrees with the bit-serial form on all payloads. -/
def Obligations.CrcBytewiseAgrees : Prop := ∀ p : Payload, crc8Bytewise p = crc8 p

/-- R131: crc8(P) is P(x)·x⁸ mod x⁸+x²+x+1 over GF(2), and CRC_POLY is that polynomial without its x⁸ term. -/
def Obligations.CrcIsPolynomialRemainder : Prop :=
  let g : Polynomial (ZMod 2) := Polynomial.X ^ 8 + Polynomial.X ^ 2 + Polynomial.X + 1
  let poly (n : Nat) (bit : Nat → Bool) : Polynomial (ZMod 2) :=
    ∑ k ∈ Finset.range n, if bit k then Polynomial.X ^ k else 0
  (∀ p : Payload, (poly 24 p.getLsbD * Polynomial.X ^ 8) %ₘ g = poly 8 (crc8 p).getLsbD) ∧
  Polynomial.X ^ 8 + poly 8 Config.crcPoly.getLsbD = g

/-- R135: the loop over the 32 bits of {P, crc8(P)} ends at 0, and a 4-byte angle frame passes the CRC check exactly
when the loop over its 32 bits does. -/
def Obligations.CrcResidue : Prop :=
  (∀ p : Payload, crcLoop 0 (bitsMsb p 24 ++ bitsMsb (crc8 p) 8) = 0) ∧
  (∀ f : BitVec 32, frameValid f = true ↔ crcLoop 0 (bitsMsb f 32) = 0)

/-- R136: every change of one bit, of two bits, or confined to B3 of a valid angle frame makes the check fail. For a change
confined to B0, B1 or B2 the ground is 90_conflicts.md C2 and 93_implementation_defined.md I18, which mark it as general
knowledge. -/
def Obligations.CrcDetectsErrors : Prop :=
  ∀ f : BitVec 32, frameValid f = true →
    (∀ j, j < 32 → frameValid (f ^^^ BitVec.twoPow 32 j) = false) ∧
    (∀ j k, j < k → k < 32 → frameValid (f ^^^ BitVec.twoPow 32 j ^^^ BitVec.twoPow 32 k) = false) ∧
    (∀ (e : Byte) (k : Nat), e ≠ 0 → k < 4 → frameValid (f ^^^ (e.setWidth 32 <<< (8 * k))) = false)

/-! ## Angle -/

/-- R150, R152, R153: ASSEMBLE answers OK with the Sample of its bytes, whatever the CRC check says: raw is B0, B1 and the
high five bits of B2, status the low three bits of B2, the CRC that of {B0, B1, B2}, and deg_q 45 times raw. -/
def Obligations.AssembleAnswers : Prop :=
  ∀ (b0 b1 b2 b3 : Byte) (s : State), s.fault = false →
    ∃ smp : Sample,
      exec (.assemble b0 b1 b2 b3) s = .next { s with responses := s.responses ++ [.status .ok (.sample smp)] } ∧
      smp.raw.toNat = b0.toNat * 8192 + b1.toNat * 32 + b2.toNat / 8 ∧
      smp.status.toNat = b2.toNat % 8 ∧
      smp.crcRx = b3 ∧
      smp.crcCalc = crc8 (BitVec.ofNat 24 (b0.toNat * 65536 + b1.toNat * 256 + b2.toNat)) ∧
      (smp.crcValid = true ↔ smp.crcRx = smp.crcCalc) ∧
      smp.degQ.toNat = smp.raw.toNat * 45

/-- R154: CONVERT answers the exact product raw·45 and the float output of the block's ANGLE_FLOAT (an open constant:
the statement holds for each of its values). -/
def Obligations.ConvertAnswers : Prop :=
  ∀ (raw : Raw) (s : State), s.fault = false →
    ∃ d : DegQ, d.toNat = raw.toNat * 45 ∧
      exec (.convert raw) s = .next { s with
        responses := s.responses ++ [.status .ok (.degrees d (floatOut Config.angleFloat raw))] }

/-- R155: the laws of convert, (a) to (f); the degrees are deg_q / 2^18. -/
def Obligations.ConvertLaws : Prop :=
  let deg (raw : Raw) : ℚ := ((convert raw).toNat : ℚ) / 2 ^ 18
  (∀ raw : Raw, (convert raw).toNat = 45 * raw.toNat) ∧
  (∀ a b : Raw, a.toNat < b.toNat → deg a < deg b) ∧
  (∀ raw : Raw, 0 ≤ deg raw ∧ deg raw < 360 ∧ deg raw ≤ 360 - 45 / 2 ^ 18) ∧
  deg 0x1FFFFF = 359.999828338623046875 ∧
  (∀ a b : Raw, b.toNat = a.toNat + 1 → deg b - deg a = 0.000171661376953125) ∧
  (∀ raw : Raw, ((convert raw).extractLsb' 18 9).toNat ≤ 359 ∧
    deg raw = ((convert raw).extractLsb' 18 9).toNat + (((convert raw).extractLsb' 0 18).toNat : ℚ) / 2 ^ 18) ∧
  ∀ k : Nat, k ≤ 7 → deg (BitVec.ofNat 21 (k * 2 ^ 18)) = 45 * k

/-- R156, `none` and `binary64`: no float output; the binary64 number equal to deg_q / 2^18. The layout of binary64 is
PRESUMED, log entry 9. -/
def Obligations.FloatOutBinary64IsExact : Prop :=
  ∀ raw : Raw, floatOut .none raw = .none ∧
    ∃ bits : BitVec 64, floatOut .binary64 raw = .binary64 bits ∧ bits.msb = false ∧ binary64Finite bits = true ∧
      binary64Value bits = ((convert raw).toNat : ℚ) / 2 ^ 18

/-- R156, `binary32`: the finite binary32 number nearest to (raw / 2^21)·360, and where another is as near, the one
whose last bit is 0 (roundTiesToEven); for raw = 2^21−1 it is 359.99981689453125. The layout of binary32 and the rounding
are PRESUMED, log entry 9. -/
def Obligations.FloatOutBinary32IsNearestEven : Prop :=
  (∀ raw : Raw, ∃ bits : BitVec 32, floatOut .binary32 raw = .binary32 bits ∧ bits.msb = false ∧
    binary32Finite bits = true ∧
    ∀ other : BitVec 32, binary32Finite other = true → binary32Value other ≠ binary32Value bits →
      |binary32Value bits - (raw.toNat : ℚ) / 2 ^ 21 * 360| <
        |binary32Value other - (raw.toNat : ℚ) / 2 ^ 21 * 360| ∨
      (|binary32Value bits - (raw.toNat : ℚ) / 2 ^ 21 * 360| =
        |binary32Value other - (raw.toNat : ℚ) / 2 ^ 21 * 360| ∧ bits.getLsbD 0 = false)) ∧
  ∃ bits : BitVec 32, floatOut .binary32 0x1FFFFF = .binary32 bits ∧ binary32Value bits = 359.99981689453125

/-- R159: the source's AngleSample of a Sample. rawAngleCode, statusBits and crcValid are the Sample's; angleDegrees is
deg_q / 2^18 where ANGLE_FLOAT is `none`, and float_out(raw) where it is not. -/
def Obligations.AngleSampleMapsSample : Prop :=
  ∀ (fmt : AngleFloat) (smp : Sample),
    (angleSampleOf fmt smp).rawAngleCode = smp.raw ∧
    (angleSampleOf fmt smp).statusBits = smp.status ∧
    (angleSampleOf fmt smp).crcValid = smp.crcValid ∧
    (fmt = .none → degreesValue (angleSampleOf fmt smp).angleDegrees = (smp.degQ.toNat : ℚ) / 2 ^ 18) ∧
    (fmt ≠ .none →
      (∃ bits, floatOut fmt smp.raw = .binary32 bits ∧ (angleSampleOf fmt smp).angleDegrees = .binary32 bits) ∨
      (∃ bits, floatOut fmt smp.raw = .binary64 bits ∧ (angleSampleOf fmt smp).angleDegrees = .binary64 bits))

/-- R157: STATUS_FLAGS answers the three bits of its operand, by name. -/
def Obligations.StatusFlagsAnswers : Prop :=
  ∀ (uv weak fast : Bool) (s : State), s.fault = false →
    exec (.statusFlags (BitVec.ofNat 3 (4 * uv.toNat + 2 * weak.toNat + fast.toNat))) s = .next { s with
      responses := s.responses ++
        [.status .ok (.flags { undervoltage := uv, weakField := weak, overspeed := fast })] }

/-- R53, R162, R163: CAL_DECODE answers the state that bits [7:6] name, whatever bits [5:0] are. -/
def Obligations.CalDecodeAnswers : Prop :=
  ∀ (v : Byte) (s : State), s.fault = false →
    ∃ c : CalState,
      exec (.calDecode v) s = .next { s with responses := s.responses ++ [.status .ok (.cal c)] } ∧
      (c = .notRun ↔ v.toNat < 64) ∧
      (c = .inProgress ↔ 64 ≤ v.toNat ∧ v.toNat < 128) ∧
      (c = .failed ↔ 128 ≤ v.toNat ∧ v.toNat < 192) ∧
      (c = .succeeded ↔ 192 ≤ v.toNat)

/-- R164, R166: READ_ANGLE completes: four READ_BYTE frames of 0x003 to 0x006 in order, 20 events, and the Sample of
the four bytes of slot 2. -/
def Obligations.ReadAngleCompletes : Prop :=
  ∀ (x0 x1 b0 y0 y1 b1 z0 z1 b2 w0 w1 b3 : Byte) (s : State),
    s.fault = false → s.strmActive = false → s.pwrCycleLock = false →
    Answered s [x0, x1, b0, y0, y1, b1, z0, z1, b2, w0, w1, b3] →
    exec .readAngle s = .next { s.skipSlots 12 with
      trace := s.trace ++
        [.csAssert, .xchg 0x30 x0, .xchg 0x03 x1, .xchg 0x00 b0, .csDeassert,
         .csAssert, .xchg 0x30 y0, .xchg 0x04 y1, .xchg 0x00 b1, .csDeassert,
         .csAssert, .xchg 0x30 z0, .xchg 0x05 z1, .xchg 0x00 b2, .csDeassert,
         .csAssert, .xchg 0x30 w0, .xchg 0x06 w1, .xchg 0x00 b3, .csDeassert]
      responses := s.responses ++ [.status .ok (.sample (assemble b0 b1 b2 b3))] }

/-- R165, R208: a BusError in any slot of any of the four frames aborts READ_ANGLE: the frames before it stand in the
trace, its own frame ends at the failing slot, no later frame is sent and no Sample is returned. -/
def Obligations.ReadAngleAbortsOnBusError : Prop :=
  ∀ (ins : List Byte) (s : State),
    s.fault = false → s.strmActive = false → s.pwrCycleLock = false →
    ins.length < 12 → Answered s ins → s.slotAnswer ins.length = .busError →
    let k := ins.length / 3
    exec .readAngle s = .next { s.skipSlots (ins.length + 1) with
      trace := s.trace ++
        ((List.range k).flatMap fun j => frameEvents (angleOuts j) ((ins.drop (3 * j)).take 3)) ++
        .csAssert :: List.zipWith BusEvent.xchg (angleOuts k) (ins.drop (3 * k)) ++
        [.xchgError ((angleOuts k).getD (ins.length % 3) 0), .csDeassert]
      responses := s.responses ++ [.status .busError .nothing] }

/-- R167, R188: for any bytes B0 to B3, the Sample READ_ANGLE returns from them is the Sample a group of the same bytes
returns in the stream. -/
def Obligations.StreamMatchesSingleShot : Prop :=
  ∀ (x0 x1 b0 y0 y1 b1 z0 z1 b2 w0 w1 b3 : Byte) (s u : State),
    s.fault = false → s.strmActive = false → s.pwrCycleLock = false →
    Answered s [x0, x1, b0, y0, y1, b1, z0, z1, b2, w0, w1, b3] →
    u.fault = false → u.strmActive = true → u.strmIdx = 0 → Answered u [b0, b1, b2, b3] →
    ∃ s' u' : State,
      exec .readAngle s = .next s' ∧
      s'.responses = s.responses ++ [.status .ok (.sample (assemble b0 b1 b2 b3))] ∧
      runPseudo .streamGroup u = .next u' ∧
      u'.responses = u.responses ++
        [.status .ok .nothing, .status .ok .nothing, .status .ok .nothing,
         .status .ok (.sample (assemble b0 b1 b2 b3))] ∧
      u'.strmActive = true ∧ u'.strmIdx = 0

/-! ## Stream -/

/-- R181, R182: STREAM_START, and READ_ANGLE_BURST, the wire command it sends, open the stream: the header [0xA0, 0x03]
inside an asserted chip-select, in-bytes ignored, the buffer not cleared. A BusError in the header closes the frame and
leaves the block as it was. -/
def Obligations.StreamStartOpensStream : Prop :=
  ∀ (i : Instr) (s : State), i = .streamStart ∨ i = .readAngleBurst →
    s.fault = false → s.strmActive = false → s.pwrCycleLock = false →
    (∀ i0 i1 : Byte, Answered s [i0, i1] →
      exec i s = .next { s.skipSlots 2 with
        strmActive := true, strmIdx := 0
        trace := s.trace ++ [.csAssert, .xchg 0xA0 i0, .xchg 0x03 i1]
        responses := s.responses ++ [.status .ok .nothing] }) ∧
    (s.slotAnswer 0 = .busError →
      exec i s = .next { s.skipSlots 1 with
        trace := s.trace ++ [.csAssert, .xchgError 0xA0, .csDeassert]
        responses := s.responses ++ [.status .busError .nothing] }) ∧
    (∀ i0 : Byte, Answered s [i0] → s.slotAnswer 1 = .busError →
      exec i s = .next { s.skipSlots 2 with
        trace := s.trace ++ [.csAssert, .xchg 0xA0 i0, .xchgError 0x03, .csDeassert]
        responses := s.responses ++ [.status .busError .nothing] })

/-- R184, R186, R189: STREAM_BYTE sends one DUMMY_BYTE slot; the first three bytes of a group are buffered, each in its own
place, and the fourth answers the Sample of the group, valid or not; the lock is not looked at. -/
def Obligations.StreamByteTakesGroupByte : Prop :=
  ∀ (r : Byte) (s : State), s.fault = false → s.strmActive = true → Answered s [r] →
    let t : State := { s.skipSlots 1 with
      trace := s.trace ++ [.xchg 0x00 r], responses := s.responses ++ [.status .ok .nothing] }
    (s.strmIdx = 0 → exec .streamByte s = .next { t with strmBuf0 := r, strmIdx := 1 }) ∧
    (s.strmIdx = 1 → exec .streamByte s = .next { t with strmBuf1 := r, strmIdx := 2 }) ∧
    (s.strmIdx = 2 → exec .streamByte s = .next { t with strmBuf2 := r, strmIdx := 3 }) ∧
    (s.strmIdx = 3 → exec .streamByte s = .next { t with
      strmIdx := 0
      responses := s.responses ++
        [.status .ok (.sample (assemble s.strmBuf0 s.strmBuf1 s.strmBuf2 r))] })

/-- R185: a BusError during the stream ends it: chip-select deasserted, s.strm_active and s.strm_idx 0, no Sample. -/
def Obligations.StreamByteBusErrorEndsStream : Prop :=
  ∀ s : State, s.fault = false → s.strmActive = true → s.slotAnswer 0 = .busError →
    exec .streamByte s = .next { s.skipSlots 1 with
      strmActive := false, strmIdx := 0
      trace := s.trace ++ [.xchgError 0x00, .csDeassert]
      responses := s.responses ++ [.status .busError .nothing] }

/-- R187: STREAM_STOP closes an open stream at a group boundary, faults inside a group with the stream left open, and
does nothing when no stream is open. -/
def Obligations.StreamStopOnlyAtBoundary : Prop :=
  ∀ s : State, s.fault = false →
    (s.strmActive = true → s.strmIdx = 0 →
      exec .streamStop s = .next { s with
        strmActive := false, trace := s.trace ++ [.csDeassert]
        responses := s.responses ++ [.status .ok .nothing] }) ∧
    (s.strmActive = true → s.strmIdx ≠ 0 →
      exec .streamStop s = .next { s with
        fault := true, faultCause := 7, responses := s.responses ++ [.fault 7] }) ∧
    (s.strmActive = false →
      exec .streamStop s = .next { s with responses := s.responses ++ [.status .ok .nothing] })

/-! ## Pseudo-operations -/

/-- R84: READB, WRITEB, BURN and SETZERO are their XFER; STREAM_GROUP is STREAM_BYTE up to four times in a row, ending
with the first that does not return OK; POLL_CAL reads register 0x113 and then decodes the byte it returned, and stops
after the first request if that does not return OK. -/
def Obligations.PseudoOpsExpand : Prop :=
  (∀ (addr : Addr) (data : Byte) (s : State),
    runPseudo (.readB addr) s = exec (.xfer 0x3 addr 0) s ∧
    runPseudo (.writeB addr data) s = exec (.xfer 0x6 addr data) s ∧
    runPseudo .burn s = exec (.xfer 0xC 0 0) s ∧
    runPseudo .setZero s = exec (.xfer 0x5 0 0) s) ∧
  (∀ (u : Nat → State) (n : Nat), 1 ≤ n → n ≤ 4 →
    (∀ k, k < n → exec .streamByte (u k) = .next (u (k + 1))) →
    (∀ k, k + 1 < n → ∃ r, (u (k + 1)).responses = (u k).responses ++ [.status .ok r]) →
    (n = 4 ∨ ∀ r, (u n).responses ≠ (u (n - 1)).responses ++ [.status .ok r]) →
    runPseudo .streamGroup (u 0) = .next (u n)) ∧
  (∀ (s t : State) (v : Byte), exec (.xfer 0x3 0x113 0) s = .next t →
    (t.responses = s.responses ++ [.status .ok (.byte v)] → runPseudo .pollCal s = exec (.calDecode v) t) ∧
    ((∀ r, t.responses ≠ s.responses ++ [.status .ok r]) → runPseudo .pollCal s = .next t))

/-- R84: STREAM_GROUP stops at the first STREAM_BYTE that does not return OK: with a BusError in its slot k the group
leaves k responses OK and then BusError, and the stream is closed. -/
def Obligations.StreamGroupStopsAtBusError : Prop :=
  ∀ (ins : List Byte) (s : State), s.fault = false → s.strmActive = true → s.strmIdx = 0 →
    ins.length < 4 → Answered s ins → s.slotAnswer ins.length = .busError →
    ∃ t, runPseudo .streamGroup s = .next t ∧ t.strmActive = false ∧ t.strmIdx = 0 ∧
      t.responses = s.responses ++ List.replicate ins.length (.status .ok .nothing) ++
        [.status .busError .nothing] ∧
      t.trace = s.trace ++ ins.map (BusEvent.xchg 0x00) ++ [.xchgError 0x00, .csDeassert]

/-! ## Encoding -/

/-- R70 to R82, with the byte layout of log entry 6: decoding the encoding of a well-formed instruction gives it back,
every operand at every value. -/
def Obligations.DecodeOfEncode : Prop := ∀ i : Instr, i.wellFormed = true → decode (encode i) = .ok i

/-- The other direction: bytes that decode are the encoding of what they decode to, which is well-formed, but for the
slot-2 byte of READ_BYTE, BURN_EEPROM and SET_ZERO, which decoding does not look at (log entry 7). -/
def Obligations.EncodeOfDecode : Prop :=
  ∀ (bytes : List Byte) (i : Instr), decode bytes = .ok i →
    i.wellFormed = true ∧
    (encode i = bytes ∨
      (((∃ addr, i = .readByte addr) ∨ i = .burnEeprom ∨ i = .setZero) ∧ encode i = bytes.set 2 0x00))

/-- R79: a frame whose slot-0 nibble is one of the eleven reserved values is refused, and no frame length is given for
it; R76: the length of every other frame. -/
def Obligations.ReservedOpcodesRefused : Prop :=
  (∀ (opc low : BitVec 4) (rest : List Byte),
    opc ∈ ([0x0, 0x1, 0x2, 0x4, 0x7, 0x8, 0x9, 0xB, 0xD, 0xE, 0xF] : List Cmd) →
    frameSlots (opc ++ low) = .error (.reservedWireOpcode opc) ∧
    decodeFrame (opc ++ low) rest = .error (.reservedWireOpcode opc)) ∧
  (∀ low : BitVec 4, frameSlots (0xA#4 ++ low) = .ok .untilDeassert) ∧
  (∀ (opc low : BitVec 4), opc ∈ ([0x3, 0x6, 0xC, 0x5] : List Cmd) → frameSlots (opc ++ low) = .ok .three)

/-- A few words of the opcode table, written out from R73, R75, R80 and R81, decode to what they stand for (a sanity check).
That an op select is presented as a byte with high nibble 0 is the model's choice (DESIGN CHOICE, log entry 6). -/
def Obligations.KnownWordsDecode : Prop :=
  decode [0x31, 0x13, 0x00] = .ok (.readByte 0x113) ∧
  decode [0x61, 0xA5, 0x3C] = .ok (.writeByte 0x1A5 0x3C) ∧
  decode [0xC0, 0x00, 0x00] = .ok .burnEeprom ∧
  decode [0x50, 0x00, 0x00] = .ok .setZero ∧
  decode [0xA0, 0x03] = .ok .readAngleBurst ∧
  decodeTableWord 24 0x300000 = some (.readByte 0) ∧
  decodeTableWord 16 0xA003 = some .readAngleBurst ∧
  decodeTableWord 8 0x8 = some .readAngle ∧
  decodeTableWord 8 0xB = some .streamStop ∧
  decodeTableWord 8 0xF = some (.reservedOp 3)

/-! ## Slots that are never answered -/

/-- R28: "If the bus never answers, the request never returns." When the first slot that answers no byte is one that is
never answered, the request waits there: no response, no field of R20 changed, and only the events of the slots before it
(that the waiting slot leaves no event, and that it has taken its answer, is DEDUCED, log entry 2). Said for every request
that uses the bus: the three-slot commands, READ_ANGLE, the two that open a stream, and STREAM_BYTE. -/
def Obligations.UnansweredSlotHangsRequest : Prop :=
  ∀ (ins : List Byte) (s : State), s.fault = false → Answered s ins → s.slotAnswer ins.length = .never →
    let waits (i : Instr) (before : List BusEvent) : Prop :=
      exec i s = .next { s.skipSlots (ins.length + 1) with busHung := true, trace := s.trace ++ before }
    (s.strmActive = false → s.pwrCycleLock = false →
      (ins.length < 3 → ∀ i out, SendsFrame i out → waits i (.csAssert :: List.zipWith BusEvent.xchg out ins)) ∧
      (ins.length < 12 → waits .readAngle
        (((List.range (ins.length / 3)).flatMap fun j => frameEvents (angleOuts j) ((ins.drop (3 * j)).take 3)) ++
          .csAssert :: List.zipWith BusEvent.xchg (angleOuts (ins.length / 3)) (ins.drop (3 * (ins.length / 3))))) ∧
      (ins.length < 2 → ∀ i, i = .streamStart ∨ i = .readAngleBurst →
        waits i (.csAssert :: List.zipWith BusEvent.xchg [0xA0, 0x03] ins))) ∧
    (s.strmActive = true → ins = [] → waits .streamByte [])
end

