-- ==== Sys2Proof/Laws/State.lean ====
section
/-! SUPPORT. One lemma per field per update of the state, so that no proof unfolds a record update. -/

namespace Sys2Proof.Laws

open Sys2Proof.Machine

/-! `respond` writes the responses alone. -/

@[simp] theorem respond_fault (s : State) (r : Response) : (s.respond r).fault = s.fault := rfl
@[simp] theorem respond_faultCause (s : State) (r : Response) : (s.respond r).faultCause = s.faultCause := rfl
@[simp] theorem respond_strmActive (s : State) (r : Response) : (s.respond r).strmActive = s.strmActive := rfl
@[simp] theorem respond_strmIdx (s : State) (r : Response) : (s.respond r).strmIdx = s.strmIdx := rfl
@[simp] theorem respond_strmBuf0 (s : State) (r : Response) : (s.respond r).strmBuf0 = s.strmBuf0 := rfl
@[simp] theorem respond_strmBuf1 (s : State) (r : Response) : (s.respond r).strmBuf1 = s.strmBuf1 := rfl
@[simp] theorem respond_strmBuf2 (s : State) (r : Response) : (s.respond r).strmBuf2 = s.strmBuf2 := rfl
@[simp] theorem respond_pwrCycleLock (s : State) (r : Response) : (s.respond r).pwrCycleLock = s.pwrCycleLock := rfl
@[simp] theorem respond_inputs (s : State) (r : Response) : (s.respond r).inputs = s.inputs := rfl
@[simp] theorem respond_answers (s : State) (r : Response) : (s.respond r).answers = s.answers := rfl
@[simp] theorem respond_draws (s : State) (r : Response) : (s.respond r).draws = s.draws := rfl
@[simp] theorem respond_busHung (s : State) (r : Response) : (s.respond r).busHung = s.busHung := rfl
@[simp] theorem respond_trace (s : State) (r : Response) : (s.respond r).trace = s.trace := rfl
@[simp] theorem respond_responses (s : State) (r : Response) : (s.respond r).responses = s.responses ++ [r] := rfl

/-! `answer` writes the responses alone (R29). -/

@[simp] theorem answer_fault (s : State) (st : Status) (r : Result) : (s.answer st r).fault = s.fault := rfl
@[simp] theorem answer_faultCause (s : State) (st : Status) (r : Result) : (s.answer st r).faultCause = s.faultCause := rfl
@[simp] theorem answer_strmActive (s : State) (st : Status) (r : Result) : (s.answer st r).strmActive = s.strmActive := rfl
@[simp] theorem answer_strmIdx (s : State) (st : Status) (r : Result) : (s.answer st r).strmIdx = s.strmIdx := rfl
@[simp] theorem answer_strmBuf0 (s : State) (st : Status) (r : Result) : (s.answer st r).strmBuf0 = s.strmBuf0 := rfl
@[simp] theorem answer_strmBuf1 (s : State) (st : Status) (r : Result) : (s.answer st r).strmBuf1 = s.strmBuf1 := rfl
@[simp] theorem answer_strmBuf2 (s : State) (st : Status) (r : Result) : (s.answer st r).strmBuf2 = s.strmBuf2 := rfl
@[simp] theorem answer_pwrCycleLock (s : State) (st : Status) (r : Result) : (s.answer st r).pwrCycleLock = s.pwrCycleLock := rfl
@[simp] theorem answer_inputs (s : State) (st : Status) (r : Result) : (s.answer st r).inputs = s.inputs := rfl
@[simp] theorem answer_answers (s : State) (st : Status) (r : Result) : (s.answer st r).answers = s.answers := rfl
@[simp] theorem answer_draws (s : State) (st : Status) (r : Result) : (s.answer st r).draws = s.draws := rfl
@[simp] theorem answer_busHung (s : State) (st : Status) (r : Result) : (s.answer st r).busHung = s.busHung := rfl
@[simp] theorem answer_trace (s : State) (st : Status) (r : Result) : (s.answer st r).trace = s.trace := rfl
@[simp] theorem answer_responses (s : State) (st : Status) (r : Result) : (s.answer st r).responses = s.responses ++ [.status st r] := rfl

/-! `raiseFault` writes the fault record and the responses alone (R204). -/

@[simp] theorem raiseFault_fault (s : State) (c : FaultCause) : (s.raiseFault c).fault = true := rfl
@[simp] theorem raiseFault_faultCause (s : State) (c : FaultCause) : (s.raiseFault c).faultCause = c.code := rfl
@[simp] theorem raiseFault_strmActive (s : State) (c : FaultCause) : (s.raiseFault c).strmActive = s.strmActive := rfl
@[simp] theorem raiseFault_strmIdx (s : State) (c : FaultCause) : (s.raiseFault c).strmIdx = s.strmIdx := rfl
@[simp] theorem raiseFault_strmBuf0 (s : State) (c : FaultCause) : (s.raiseFault c).strmBuf0 = s.strmBuf0 := rfl
@[simp] theorem raiseFault_strmBuf1 (s : State) (c : FaultCause) : (s.raiseFault c).strmBuf1 = s.strmBuf1 := rfl
@[simp] theorem raiseFault_strmBuf2 (s : State) (c : FaultCause) : (s.raiseFault c).strmBuf2 = s.strmBuf2 := rfl
@[simp] theorem raiseFault_pwrCycleLock (s : State) (c : FaultCause) : (s.raiseFault c).pwrCycleLock = s.pwrCycleLock := rfl
@[simp] theorem raiseFault_inputs (s : State) (c : FaultCause) : (s.raiseFault c).inputs = s.inputs := rfl
@[simp] theorem raiseFault_answers (s : State) (c : FaultCause) : (s.raiseFault c).answers = s.answers := rfl
@[simp] theorem raiseFault_draws (s : State) (c : FaultCause) : (s.raiseFault c).draws = s.draws := rfl
@[simp] theorem raiseFault_busHung (s : State) (c : FaultCause) : (s.raiseFault c).busHung = s.busHung := rfl
@[simp] theorem raiseFault_trace (s : State) (c : FaultCause) : (s.raiseFault c).trace = s.trace := rfl
@[simp] theorem raiseFault_responses (s : State) (c : FaultCause) : (s.raiseFault c).responses = s.responses ++ [.fault c.code] := rfl

/-! `emit` writes the trace alone. -/

@[simp] theorem emit_fault (s : State) (es : List BusEvent) : (s.emit es).fault = s.fault := rfl
@[simp] theorem emit_faultCause (s : State) (es : List BusEvent) : (s.emit es).faultCause = s.faultCause := rfl
@[simp] theorem emit_strmActive (s : State) (es : List BusEvent) : (s.emit es).strmActive = s.strmActive := rfl
@[simp] theorem emit_strmIdx (s : State) (es : List BusEvent) : (s.emit es).strmIdx = s.strmIdx := rfl
@[simp] theorem emit_strmBuf0 (s : State) (es : List BusEvent) : (s.emit es).strmBuf0 = s.strmBuf0 := rfl
@[simp] theorem emit_strmBuf1 (s : State) (es : List BusEvent) : (s.emit es).strmBuf1 = s.strmBuf1 := rfl
@[simp] theorem emit_strmBuf2 (s : State) (es : List BusEvent) : (s.emit es).strmBuf2 = s.strmBuf2 := rfl
@[simp] theorem emit_pwrCycleLock (s : State) (es : List BusEvent) : (s.emit es).pwrCycleLock = s.pwrCycleLock := rfl
@[simp] theorem emit_inputs (s : State) (es : List BusEvent) : (s.emit es).inputs = s.inputs := rfl
@[simp] theorem emit_answers (s : State) (es : List BusEvent) : (s.emit es).answers = s.answers := rfl
@[simp] theorem emit_draws (s : State) (es : List BusEvent) : (s.emit es).draws = s.draws := rfl
@[simp] theorem emit_busHung (s : State) (es : List BusEvent) : (s.emit es).busHung = s.busHung := rfl
@[simp] theorem emit_trace (s : State) (es : List BusEvent) : (s.emit es).trace = s.trace ++ es := rfl
@[simp] theorem emit_responses (s : State) (es : List BusEvent) : (s.emit es).responses = s.responses := rfl

/-! `skipSlots` moves the environment alone (R28). -/

@[simp] theorem skipSlots_fault (s : State) (k : Nat) : (s.skipSlots k).fault = s.fault := rfl
@[simp] theorem skipSlots_faultCause (s : State) (k : Nat) : (s.skipSlots k).faultCause = s.faultCause := rfl
@[simp] theorem skipSlots_strmActive (s : State) (k : Nat) : (s.skipSlots k).strmActive = s.strmActive := rfl
@[simp] theorem skipSlots_strmIdx (s : State) (k : Nat) : (s.skipSlots k).strmIdx = s.strmIdx := rfl
@[simp] theorem skipSlots_strmBuf0 (s : State) (k : Nat) : (s.skipSlots k).strmBuf0 = s.strmBuf0 := rfl
@[simp] theorem skipSlots_strmBuf1 (s : State) (k : Nat) : (s.skipSlots k).strmBuf1 = s.strmBuf1 := rfl
@[simp] theorem skipSlots_strmBuf2 (s : State) (k : Nat) : (s.skipSlots k).strmBuf2 = s.strmBuf2 := rfl
@[simp] theorem skipSlots_pwrCycleLock (s : State) (k : Nat) : (s.skipSlots k).pwrCycleLock = s.pwrCycleLock := rfl
@[simp] theorem skipSlots_inputs (s : State) (k : Nat) : (s.skipSlots k).inputs = s.inputs := rfl
@[simp] theorem skipSlots_answers (s : State) (k : Nat) : (s.skipSlots k).answers = s.answers.drop k := rfl
@[simp] theorem skipSlots_draws (s : State) (k : Nat) : (s.skipSlots k).draws = s.draws + (k - s.answers.length) := rfl
@[simp] theorem skipSlots_busHung (s : State) (k : Nat) : (s.skipSlots k).busHung = s.busHung := rfl
@[simp] theorem skipSlots_trace (s : State) (k : Nat) : (s.skipSlots k).trace = s.trace := rfl
@[simp] theorem skipSlots_responses (s : State) (k : Nat) : (s.skipSlots k).responses = s.responses := rfl

/-! `hang` writes `busHung` alone. -/

@[simp] theorem hang_fault (s : State) : (s.hang).fault = s.fault := rfl
@[simp] theorem hang_faultCause (s : State) : (s.hang).faultCause = s.faultCause := rfl
@[simp] theorem hang_strmActive (s : State) : (s.hang).strmActive = s.strmActive := rfl
@[simp] theorem hang_strmIdx (s : State) : (s.hang).strmIdx = s.strmIdx := rfl
@[simp] theorem hang_strmBuf0 (s : State) : (s.hang).strmBuf0 = s.strmBuf0 := rfl
@[simp] theorem hang_strmBuf1 (s : State) : (s.hang).strmBuf1 = s.strmBuf1 := rfl
@[simp] theorem hang_strmBuf2 (s : State) : (s.hang).strmBuf2 = s.strmBuf2 := rfl
@[simp] theorem hang_pwrCycleLock (s : State) : (s.hang).pwrCycleLock = s.pwrCycleLock := rfl
@[simp] theorem hang_inputs (s : State) : (s.hang).inputs = s.inputs := rfl
@[simp] theorem hang_answers (s : State) : (s.hang).answers = s.answers := rfl
@[simp] theorem hang_draws (s : State) : (s.hang).draws = s.draws := rfl
@[simp] theorem hang_busHung (s : State) : (s.hang).busHung = true := rfl
@[simp] theorem hang_trace (s : State) : (s.hang).trace = s.trace := rfl
@[simp] theorem hang_responses (s : State) : (s.hang).responses = s.responses := rfl

/-! `resetFields` gives the fields of R20 their reset values (R32) and leaves the rest. -/

@[simp] theorem resetFields_fault (s : State) : (s.resetFields).fault = false := rfl
@[simp] theorem resetFields_faultCause (s : State) : (s.resetFields).faultCause = 0 := rfl
@[simp] theorem resetFields_strmActive (s : State) : (s.resetFields).strmActive = false := rfl
@[simp] theorem resetFields_strmIdx (s : State) : (s.resetFields).strmIdx = 0 := rfl
@[simp] theorem resetFields_strmBuf0 (s : State) : (s.resetFields).strmBuf0 = 0 := rfl
@[simp] theorem resetFields_strmBuf1 (s : State) : (s.resetFields).strmBuf1 = 0 := rfl
@[simp] theorem resetFields_strmBuf2 (s : State) : (s.resetFields).strmBuf2 = 0 := rfl
@[simp] theorem resetFields_pwrCycleLock (s : State) : (s.resetFields).pwrCycleLock = s.pwrCycleLock := rfl
@[simp] theorem resetFields_inputs (s : State) : (s.resetFields).inputs = s.inputs := rfl
@[simp] theorem resetFields_answers (s : State) : (s.resetFields).answers = s.answers := rfl
@[simp] theorem resetFields_draws (s : State) : (s.resetFields).draws = s.draws := rfl
@[simp] theorem resetFields_busHung (s : State) : (s.resetFields).busHung = false := rfl
@[simp] theorem resetFields_trace (s : State) : (s.resetFields).trace = s.trace := rfl
@[simp] theorem resetFields_responses (s : State) : (s.resetFields).responses = s.responses := rfl

end Sys2Proof.Laws
end

