-- ==== Sys2Proof/Laws/Ops.lean ====
section
/-! SUPPORT. What each shared operation can do, said once. -/

namespace Sys2Proof.Laws

open Sys2Proof.Machine

/-! The checks of R206. -/

theorem accept_halted {s : State} (h : s.fault = true) (run : State → State) :
    s.accept run = s.respond (.fault s.faultCause) := by simp [State.accept, h]

theorem accept_running {s : State} (h : s.fault = false) (run : State → State) : s.accept run = run s := by
  simp [State.accept, h]

theorem openBus_busy {s : State} (h : s.strmActive = true) (run : State → State) :
    s.openBus run = s.raiseFault .busBusy := by simp [State.openBus, h]

theorem openBus_locked {s : State} (h : s.strmActive = false) (hl : s.pwrCycleLock = true) (run : State → State) :
    s.openBus run = s.answer .powerCycleRequired .nothing := by simp [State.openBus, h, hl]

theorem openBus_free {s : State} (h : s.strmActive = false) (hl : s.pwrCycleLock = false) (run : State → State) :
    s.openBus run = run s := by simp [State.openBus, h, hl]

/-! The environment of the bus (R28). -/

@[simp] theorem slotAnswer_emit (s : State) (es : List BusEvent) (k : Nat) :
    (s.emit es).slotAnswer k = s.slotAnswer k := rfl

@[simp] theorem slotAnswer_skipSlots (s : State) (m k : Nat) :
    (s.skipSlots m).slotAnswer k = s.slotAnswer (m + k) := by
  simp only [State.slotAnswer, State.skipSlots, List.getD_eq_getElem?_getD, List.getElem?_drop, List.length_drop]
  congr 2
  omega

@[simp] theorem skipSlots_zero (s : State) : s.skipSlots 0 = s := by simp [State.skipSlots]

theorem skipSlots_skipSlots (s : State) (m k : Nat) : (s.skipSlots m).skipSlots k = s.skipSlots (m + k) := by
  simp only [State.skipSlots, List.drop_drop, List.length_drop, State.mk.injEq, true_and, and_true]
  omega

theorem skipSlots_emit (s : State) (es : List BusEvent) (k : Nat) :
    (s.emit es).skipSlots k = (s.skipSlots k).emit es := rfl

@[simp] theorem emit_emit (s : State) (es fs : List BusEvent) : (s.emit es).emit fs = s.emit (es ++ fs) := by
  simp [State.emit]

@[simp] theorem emit_nil (s : State) : s.emit [] = s := by simp [State.emit]

/-! One slot. -/

theorem busXchg_byte {s : State} {i : Byte} (h : s.slotAnswer 0 = .byte i) (o : Byte) :
    s.busXchg o = (.byte i, (s.skipSlots 1).emit [.xchg o i]) := by simp [State.busXchg, h]

theorem busXchg_busError {s : State} (h : s.slotAnswer 0 = .busError) (o : Byte) :
    s.busXchg o = (.busError, (s.skipSlots 1).emit [.xchgError o]) := by simp [State.busXchg, h]

theorem busXchg_never {s : State} (h : s.slotAnswer 0 = .never) (o : Byte) :
    s.busXchg o = (.never, s.skipSlots 1) := by simp [State.busXchg, h]

/-! Slots in a row (R27, R103). -/

/-- The events of slots that send `outs` and receive `ins`. -/
def xchgEvents (outs ins : List Byte) : List BusEvent := List.zipWith BusEvent.xchg outs ins

@[simp] theorem cons_bytes (i : Byte) (ins : List Byte) : (SlotsEnd.bytes ins).cons i = .bytes (i :: ins) := rfl

@[simp] theorem cons_busError (i : Byte) : SlotsEnd.busError.cons i = .busError := rfl

@[simp] theorem cons_hung (i : Byte) : SlotsEnd.hung.cons i = .hung := rfl

@[simp] theorem slots_nil (s : State) : s.slots [] = (.bytes [], s) := rfl

theorem slots_byte {s : State} {i : Byte} (h : s.slotAnswer 0 = .byte i) (o : Byte) (outs : List Byte) :
    s.slots (o :: outs) =
      ((((s.skipSlots 1).emit [.xchg o i]).slots outs).1.cons i, (((s.skipSlots 1).emit [.xchg o i]).slots outs).2) := by
  rw [State.slots, busXchg_byte h]

theorem slots_busError {s : State} (h : s.slotAnswer 0 = .busError) (o : Byte) (outs : List Byte) :
    s.slots (o :: outs) = (.busError, (s.skipSlots 1).emit [.xchgError o]) := by
  rw [State.slots, busXchg_busError h]

theorem slots_never {s : State} (h : s.slotAnswer 0 = .never) (o : Byte) (outs : List Byte) :
    s.slots (o :: outs) = (.hung, s.skipSlots 1) := by
  rw [State.slots, busXchg_never h]

/-- How slots in a row can end: all answered, or answered up to a slot that fails or is never answered. Only the
environment and the trace change. -/
theorem slots_cases (outs : List Byte) : ∀ s : State,
    (∃ ins, ins.length = outs.length ∧
      s.slots outs = (.bytes ins, (s.skipSlots outs.length).emit (xchgEvents outs ins))) ∨
    (∃ pre o post ins, outs = pre ++ o :: post ∧ ins.length = pre.length ∧
      s.slots outs = (.busError, (s.skipSlots (pre.length + 1)).emit (xchgEvents pre ins ++ [.xchgError o]))) ∨
    (∃ pre o post ins, outs = pre ++ o :: post ∧ ins.length = pre.length ∧
      s.slots outs = (.hung, (s.skipSlots (pre.length + 1)).emit (xchgEvents pre ins))) := by
  induction outs with
  | nil => intro s; exact .inl ⟨[], rfl, by simp [xchgEvents]⟩
  | cons o outs ih =>
    intro s
    rcases h : s.slotAnswer 0 with i | _ | _
    · rw [slots_byte h]
      rcases ih ((s.skipSlots 1).emit [.xchg o i]) with ⟨ins, hl, e⟩ | ⟨pre, p, post, ins, rfl, hl, e⟩ |
        ⟨pre, p, post, ins, rfl, hl, e⟩
      · refine .inl ⟨i :: ins, by simp [hl], ?_⟩
        simp [e, skipSlots_emit, skipSlots_skipSlots, xchgEvents, Nat.add_comm]
      · refine .inr (.inl ⟨o :: pre, p, post, i :: ins, rfl, by simp [hl], ?_⟩)
        simp [e, skipSlots_emit, skipSlots_skipSlots, xchgEvents, Nat.add_comm]
      · refine .inr (.inr ⟨o :: pre, p, post, i :: ins, rfl, by simp [hl], ?_⟩)
        simp [e, skipSlots_emit, skipSlots_skipSlots, xchgEvents, Nat.add_comm]
    · exact .inr (.inl ⟨[], o, outs, [], rfl, rfl, by simp [slots_busError h, xchgEvents]⟩)
    · exact .inr (.inr ⟨[], o, outs, [], rfl, rfl, by simp [slots_never h, xchgEvents]⟩)

/-- How slots end whose first ones are answered with `ins` and whose rest ends so. -/
def afterBytes (ins : List Byte) (e : SlotsEnd) : SlotsEnd := ins.foldr SlotsEnd.cons e

@[simp] theorem afterBytes_busError (ins : List Byte) : afterBytes ins .busError = .busError := by
  induction ins with
  | nil => rfl
  | cons i ins ih => simpa [afterBytes] using congrArg (SlotsEnd.cons i) ih

@[simp] theorem afterBytes_hung (ins : List Byte) : afterBytes ins .hung = .hung := by
  induction ins with
  | nil => rfl
  | cons i ins ih => simpa [afterBytes] using congrArg (SlotsEnd.cons i) ih

@[simp] theorem afterBytes_bytes (ins more : List Byte) :
    afterBytes ins (.bytes more) = .bytes (ins ++ more) := by
  induction ins with
  | nil => rfl
  | cons i ins ih => simpa [afterBytes] using congrArg (SlotsEnd.cons i) ih

/-- Slots that begin with ones answered by `ins`: what is left is the rest of the slots. -/
theorem slots_answered (ins : List Byte) : ∀ (pre outs : List Byte) (s : State), pre.length = ins.length →
    (∀ k (h : k < ins.length), s.slotAnswer k = .byte ins[k]) →
    s.slots (pre ++ outs) =
      (afterBytes ins (((s.skipSlots pre.length).emit (xchgEvents pre ins)).slots outs).1,
        (((s.skipSlots pre.length).emit (xchgEvents pre ins)).slots outs).2) := by
  induction ins with
  | nil => intro pre outs s hl _; simp [List.length_eq_zero_iff.1 hl, xchgEvents, afterBytes]
  | cons i ins ih =>
    intro pre outs s hl h
    rcases pre with _ | ⟨o, pre⟩
    · simp at hl
    · rw [List.cons_append, slots_byte (h 0 (by simp)), ih pre outs _ (by simpa using hl)]
      · simp [afterBytes, xchgEvents, skipSlots_emit, skipSlots_skipSlots, Nat.add_comm]
      · intro k hk
        rw [slotAnswer_emit, slotAnswer_skipSlots, Nat.add_comm 1 k]
        exact h (k + 1) (by simpa using hk)

/-- Slots whose first that answers no byte fails with BusError (R103). -/
theorem slots_failAt {s : State} {pre ins : List Byte} (hl : pre.length = ins.length)
    (h : ∀ k (hk : k < ins.length), s.slotAnswer k = .byte ins[k]) (he : s.slotAnswer ins.length = .busError)
    (o : Byte) (post : List Byte) :
    s.slots (pre ++ o :: post) =
      (.busError, (s.skipSlots (ins.length + 1)).emit (xchgEvents pre ins ++ [.xchgError o])) := by
  rw [slots_answered ins pre _ s hl h, slots_busError (by simpa [hl] using he)]
  simp [skipSlots_emit, skipSlots_skipSlots, hl]

/-- Slots whose first that answers no byte is never answered (R28). -/
theorem slots_hangAt {s : State} {pre ins : List Byte} (hl : pre.length = ins.length)
    (h : ∀ k (hk : k < ins.length), s.slotAnswer k = .byte ins[k]) (he : s.slotAnswer ins.length = .never)
    (o : Byte) (post : List Byte) :
    s.slots (pre ++ o :: post) = (.hung, (s.skipSlots (ins.length + 1)).emit (xchgEvents pre ins)) := by
  rw [slots_answered ins pre _ s hl h, slots_never (by simpa [hl] using he)]
  simp [skipSlots_emit, skipSlots_skipSlots, hl]

/-! Whole frames (R102, R103). -/

/-- How a whole frame can end. -/
theorem frame_cases (s : State) (outs : List Byte) :
    (∃ ins, ins.length = outs.length ∧ s.frame outs =
      (.bytes ins, (s.skipSlots outs.length).emit ([.csAssert] ++ xchgEvents outs ins ++ [.csDeassert]))) ∨
    (∃ pre o post ins, outs = pre ++ o :: post ∧ ins.length = pre.length ∧ s.frame outs =
      (.busError, (s.skipSlots (pre.length + 1)).emit
        ([.csAssert] ++ xchgEvents pre ins ++ [.xchgError o, .csDeassert]))) ∨
    (∃ pre o post ins, outs = pre ++ o :: post ∧ ins.length = pre.length ∧ s.frame outs =
      (.hung, ((s.skipSlots (pre.length + 1)).emit ([.csAssert] ++ xchgEvents pre ins)).hang)) := by
  rcases slots_cases outs (s.emit [.csAssert]) with ⟨ins, hl, e⟩ | ⟨pre, p, post, ins, rfl, hl, e⟩ |
    ⟨pre, p, post, ins, rfl, hl, e⟩
  · exact .inl ⟨ins, hl, by simp [State.frame, e, skipSlots_emit]⟩
  · exact .inr (.inl ⟨pre, p, post, ins, rfl, hl, by simp [State.frame, e, skipSlots_emit]⟩)
  · exact .inr (.inr ⟨pre, p, post, ins, rfl, hl, by simp [State.frame, e, skipSlots_emit]⟩)

/-- Three slots answered in a row. -/
theorem slots_three {s : State} {i0 i1 i2 : Byte} (h0 : s.slotAnswer 0 = .byte i0) (h1 : s.slotAnswer 1 = .byte i1)
    (h2 : s.slotAnswer 2 = .byte i2) (o0 o1 o2 : Byte) :
    s.slots [o0, o1, o2] =
      (.bytes [i0, i1, i2], (s.skipSlots 3).emit [.xchg o0 i0, .xchg o1 i1, .xchg o2 i2]) := by
  rw [slots_byte h0, slots_byte (by simpa using h1), slots_byte (by simpa using h2)]
  simp [skipSlots_emit, skipSlots_skipSlots]

/-- A frame whose three slots are all answered. -/
theorem frame_three {s : State} {i0 i1 i2 : Byte} (h0 : s.slotAnswer 0 = .byte i0) (h1 : s.slotAnswer 1 = .byte i1)
    (h2 : s.slotAnswer 2 = .byte i2) (o0 o1 o2 : Byte) :
    s.frame [o0, o1, o2] = (.bytes [i0, i1, i2],
      (s.skipSlots 3).emit [.csAssert, .xchg o0 i0, .xchg o1 i1, .xchg o2 i2, .csDeassert]) := by
  rw [State.frame, slots_three (by simpa using h0) (by simpa using h1) (by simpa using h2)]
  simp [skipSlots_emit]

/-! Answers and faults as whole states. -/

theorem conclude_ok (s : State) (st : Status) (r : Result) : s.conclude (.ok (st, r)) = s.answer st r := rfl

theorem conclude_error (s : State) (c : FaultCause) : s.conclude (.error c) = s.raiseFault c := rfl

/-! The group aligner (R184). -/

theorem takeGroupByte_first {s : State} (h : s.strmIdx = 0) (r : Byte) :
    s.takeGroupByte r = { s with strmBuf0 := r, strmIdx := 1 }.answer .ok .nothing := by
  simp [State.takeGroupByte, h]

theorem takeGroupByte_second {s : State} (h : s.strmIdx = 1) (r : Byte) :
    s.takeGroupByte r = { s with strmBuf1 := r, strmIdx := 2 }.answer .ok .nothing := by
  simp [State.takeGroupByte, h]

theorem takeGroupByte_third {s : State} (h : s.strmIdx = 2) (r : Byte) :
    s.takeGroupByte r = { s with strmBuf2 := r, strmIdx := 3 }.answer .ok .nothing := by
  simp [State.takeGroupByte, h]

theorem takeGroupByte_fourth {s : State} (h : s.strmIdx = 3) (r : Byte) :
    s.takeGroupByte r =
      { s with strmIdx := 0 }.answer .ok (.sample (assemble s.strmBuf0 s.strmBuf1 s.strmBuf2 r)) := by
  simp [State.takeGroupByte, h]

/-! The source's angleDegrees (R159). -/

@[simp] theorem angleDegreesOf_none (smp : Sample) : angleDegreesOf .none smp = .fixed smp.degQ := rfl

@[simp] theorem angleDegreesOf_binary32 (smp : Sample) :
    angleDegreesOf .binary32 smp = .binary32 (binary32Of (smp.raw.toNat * 45)) := rfl

@[simp] theorem angleDegreesOf_binary64 (smp : Sample) :
    angleDegreesOf .binary64 smp = .binary64 (binary64Of (smp.raw.toNat * 45)) := rfl

/-! Commands. -/

@[simp] theorem ofCode_code (w : WireCmd) : WireCmd.ofCode w.code = some w := by cases w <;> decide

theorem ofCode_eq_some {c : Cmd} {w : WireCmd} : WireCmd.ofCode c = some w ↔ c = w.code := by
  constructor
  · intro h
    unfold WireCmd.ofCode at h
    split_ifs at h <;> simp_all [WireCmd.code] <;> subst h <;> rfl
  · rintro rfl; exact ofCode_code w

end Sys2Proof.Laws
end

