-- ==== Sys2Proof/Laws/PerInstr.lean ====
section
/-! SUPPORT. A statement about every instruction as syntax: its encoding has the bits that its row of
spec/opcode_table.json fixes (30_encoding.md rules R71 to R73, R75, R80, R81). -/

namespace Sys2Proof.Laws.TableRow

/-- The mask and the match of an instruction's row, byte by byte, the first byte first. -/
def maskMatch : Instr → List (Byte × Byte)
  | .readByte _ => [(0xF0, 0x30), (0x00, 0x00), (0x00, 0x00)]
  | .writeByte _ _ => [(0xF0, 0x60), (0x00, 0x00), (0x00, 0x00)]
  | .burnEeprom => [(0xFF, 0xC0), (0xFF, 0x00), (0x00, 0x00)]
  | .setZero => [(0xFF, 0x50), (0xFF, 0x00), (0x00, 0x00)]
  | .readAngleBurst => [(0xFF, 0xA0), (0xFF, 0x03)]
  | .encode _ _ _ => [(0x0F, 0x00)]
  | .decode _ _ => [(0x0F, 0x01)]
  | .crc8 _ => [(0x0F, 0x02)]
  | .assemble _ _ _ _ => [(0x0F, 0x03)]
  | .convert _ => [(0x0F, 0x04)]
  | .statusFlags _ => [(0x0F, 0x05)]
  | .calDecode _ => [(0x0F, 0x06)]
  | .xfer _ _ _ => [(0x0F, 0x07)]
  | .readAngle => [(0x0F, 0x08)]
  | .streamStart => [(0x0F, 0x09)]
  | .streamByte => [(0x0F, 0x0A)]
  | .streamStop => [(0x0F, 0x0B)]
  | .reservedOp _ => [(0x0C, 0x0C)]

/-- The first bytes have the bits the row fixes. -/
def fits : List (Byte × Byte) → List Byte → Bool
  | [], _ => true
  | _ :: _, [] => false
  | (mask, want) :: row, b :: bs => decide (b &&& mask = want) && fits row bs

/-- The encoding of a well-formed instruction has the bits its table row fixes. -/
def Statement (i : Instr) : Prop := i.wellFormed = true → fits (maskMatch i) (encode i) = true

/-- The first header byte is the opcode and the high nibble of the address (R72). -/
theorem header_high (opc : Cmd) (addr : RegAddr) : (opc ++ addr).extractLsb' 8 8 = opc ++ addr.extractLsb' 8 4 := by
  apply BitVec.eq_of_getLsbD_eq
  intro k hk
  rw [BitVec.getLsbD_extractLsb', BitVec.getLsbD_append, BitVec.getLsbD_append, BitVec.getLsbD_extractLsb']
  by_cases h : k < 4
  · simp [h, hk, show 8 + k < 12 by omega]
  · simp [h, hk, show ¬ 8 + k < 12 by omega, show 8 + k - 12 = k - 4 by omega]

/-- The first header byte carries the opcode in its high nibble. -/
theorem header_opcode (opc : Cmd) (addr : RegAddr) : (opc ++ addr).extractLsb' 8 8 &&& 0xF0 = opc ++ 0#4 := by
  rw [header_high]
  generalize addr.extractLsb' 8 4 = high
  revert opc high
  decide

theorem readByte (addr : Addr) : Statement (.readByte addr) := by
  intro _
  simp [encode, header, maskMatch, fits]
  exact header_opcode 0x3 _

theorem writeByte (addr : Addr) (data : Byte) : Statement (.writeByte addr data) := by
  intro _
  simp [encode, header, maskMatch, fits]
  exact header_opcode 0x6 _

theorem burnEeprom : Statement .burnEeprom := fun _ => by decide

theorem setZero : Statement .setZero := fun _ => by decide

theorem readAngleBurst : Statement .readAngleBurst := fun _ => by decide

theorem encode (cmd : Cmd) (addr : Addr) (data : Byte) : Statement (.encode cmd addr data) := fun _ => rfl

theorem decode (cmd : Cmd) (ins : List Byte) : Statement (.decode cmd ins) := fun _ => rfl

theorem crc8 (payload : Payload) : Statement (.crc8 payload) := fun _ => rfl

theorem assemble (b0 b1 b2 b3 : Byte) : Statement (.assemble b0 b1 b2 b3) := fun _ => rfl

theorem convert (raw : Raw) : Statement (.convert raw) := fun _ => rfl

theorem statusFlags (status : Status3) : Statement (.statusFlags status) := fun _ => rfl

theorem calDecode (v : Byte) : Statement (.calDecode v) := fun _ => rfl

theorem xfer (cmd : Cmd) (addr : Addr) (data : Byte) : Statement (.xfer cmd addr data) := fun _ => rfl

theorem readAngle : Statement .readAngle := fun _ => rfl

theorem streamStart : Statement .streamStart := fun _ => rfl

theorem streamByte : Statement .streamByte := fun _ => rfl

theorem streamStop : Statement .streamStop := fun _ => rfl

theorem reservedOp (low : BitVec 2) : Statement (.reservedOp low) := fun _ => by
  revert low
  decide

end Sys2Proof.Laws.TableRow
end

