-- ==== Sys2Proof/Tests/Slice0.lean ====
section
/-! SUPPORT. Tests with results from spec/95_test_vectors.md and spec/30_encoding.md, and a witness for the hypotheses of
every statement of Certificates/Slice0/Obligations.lean that has some. -/

namespace Sys2Proof.Tests

open Sys2Proof.Machine Sys2Proof.Safety

/-! Small states. -/

/-- Reset, with these answers of the bus to come. -/
def ready (answers : List SlotAnswer) : State := { State.reset with answers := answers }

/-- An open stream with idx bytes of its group received, as STREAM_START from reset leaves it. -/
def streaming (idx : BitVec 2) (answers : List SlotAnswer) : State :=
  { ready answers with
    strmActive := true, strmIdx := idx, strmBuf0 := 0x12, strmBuf1 := 0x34, strmBuf2 := 0x56
    trace := [.csAssert, .xchg 0xA0 0x00, .xchg 0x03 0x00] ++ List.replicate idx.toNat (.xchg 0x00 0x00) }

/-- Reset, with the lock set. -/
def locked : State := { State.reset with pwrCycleLock := true }

/-- A block halted by StreamNotActive. -/
def halted : State := { State.reset with fault := true, faultCause := 6 }

/-- The state after an instruction, where it has one. -/
def after (i : Instr) (s : State) : Option State :=
  match exec i s with
  | .next t => some t
  | .fault _ => none
  | .refused _ => none

/-- The responses after an instruction. -/
def answers (i : Instr) (s : State) : Option (List Response) := (after i s).map (·.responses)

/-- The trace after an instruction. -/
def events (i : Instr) (s : State) : Option (List BusEvent) := (after i s).map (·.trace)

/-! Well-formedness: the one check is the 12-bit address of a wire frame. -/

theorem test_illFormed_readByte : (Instr.readByte 0x1000).wellFormed = false := by decide
theorem test_illFormed_writeByte : (Instr.writeByte 0xFFFF 0x00).wellFormed = false := by decide
theorem test_wellFormed_readByte : (Instr.readByte 0x0FFF).wellFormed = true := by decide

/-! Words written out from R71 to R75 and R80 (V-ENC gives the frames). -/

theorem test_decode_readByte : decode [0x31, 0x13, 0x00] = .ok (.readByte 0x113) := by decide
theorem test_decode_writeByte : decode [0x61, 0xA5, 0x3C] = .ok (.writeByte 0x1A5 0x3C) := by decide
theorem test_decode_burnEeprom : decode [0xC0, 0x00, 0x00] = .ok .burnEeprom := by decide
theorem test_decode_setZero : decode [0x50, 0x00, 0x00] = .ok .setZero := by decide
theorem test_decode_readAngleBurst : decode [0xA0, 0x03] = .ok .readAngleBurst := by decide
theorem test_decode_encode : decode [0x00, 0x06, 0x01, 0xA5, 0x3C] = .ok (.encode 0x6 0x1A5 0x3C) := by decide
theorem test_decode_decode : decode [0x01, 0x05, 0xFF, 0xFF, 0xAA] = .ok (.decode 0x5 [0xFF, 0xFF, 0xAA]) := by decide
theorem test_decode_crc8 : decode [0x02, 0x12, 0x34, 0x56] = .ok (.crc8 0x123456) := by decide
theorem test_decode_assemble : decode [0x03, 0x12, 0x34, 0x56, 0x7C] = .ok (.assemble 0x12 0x34 0x56 0x7C) := by decide
theorem test_decode_convert : decode [0x04, 0x08, 0x00, 0x00] = .ok (.convert 0x080000) := by decide
theorem test_decode_statusFlags : decode [0x05, 0x06] = .ok (.statusFlags 0b110) := by decide
theorem test_decode_calDecode : decode [0x06, 0x40] = .ok (.calDecode 0x40) := by decide
theorem test_decode_xfer : decode [0x07, 0x03, 0x01, 0x13, 0x00] = .ok (.xfer 0x3 0x113 0x00) := by decide
theorem test_decode_readAngle : decode [0x08] = .ok .readAngle := by decide
theorem test_decode_streamStart : decode [0x09] = .ok .streamStart := by decide
theorem test_decode_streamByte : decode [0x0A] = .ok .streamByte := by decide
theorem test_decode_streamStop : decode [0x0B] = .ok .streamStop := by decide
theorem test_decode_reservedOp : decode [0x0D] = .ok (.reservedOp 1) := by decide

/-- What spells no request is refused by name. -/
theorem test_decode_refusals :
    decode [] = .error .empty ∧ decode [0x70, 0x00, 0x00] = .error (.reservedWireOpcode 0x7) ∧
    decode [0x30, 0x03] = .error .frameLength ∧ decode [0xC0, 0x01, 0x00] = .error .fixedAddress ∧
    decode [0x02, 0x12] = .error .truncated ∧ decode [0x08, 0x00] = .error .trailing ∧
    decode [0x05, 0x08] = .error .operandRange := by decide

/-! CRC-8: V-CRC, V-CRC-T, V-CRC-TR. -/

theorem test_crc8 : answers (.crc8 0x123456) State.reset = some [.status .ok (.byte 0x7C)] := by decide
theorem test_crc8_vectors :
    crc8 0x000000 = 0x00 ∧ crc8 0x000001 = 0x07 ∧ crc8 0x800000 = 0x0B ∧ crc8 0xABCDEF = 0x23 ∧
    crc8 0xFFFFFF = 0x0F ∧ crc8Bytewise 0x5A5A5A = 0xAC := by decide
theorem test_crcTable_row8 :
    (List.range 16).map (fun k => crcTable (BitVec.ofNat 8 (0x80 + k))) =
      [0x89, 0x8E, 0x87, 0x80, 0x95, 0x92, 0x9B, 0x9C, 0xB1, 0xB6, 0xBF, 0xB8, 0xAD, 0xAA, 0xA3, 0xA4] := by decide

/-! Codec: V-ENC, V-DEC, V-XF. -/

theorem test_encode_edges :
    answers (.encode 0x3 0xFFF 0x99) State.reset = some [.status .ok (.bytes [0x3F, 0xFF, 0x00])] ∧
    answers (.encode 0xC 0xFFFF 0x77) State.reset = some [.status .ok (.bytes [0xC0, 0x00, 0x00])] ∧
    answers (.encode 0xA 0 0) State.reset = some [.status .ok (.bytes [0xA0, 0x03])] := by decide
theorem test_encode_faults :
    answers (.encode 0x3 0x1000 0) State.reset = some [.fault 3] ∧
    answers (.encode 0xF 0x1000 0) State.reset = some [.fault 2] := by decide
theorem test_decode_burst :
    answers (.decode 0xA [0, 0, 0x12, 0x34, 0x56, 0x7C, 0xFF, 0xFF, 0xFF, 0x0F]) State.reset =
      some [.status .ok (.samples [⟨0x02468A, 0b110, 0x7C, 0x7C, true, 0x0666642⟩,
        ⟨0x1FFFFF, 0b111, 0x0F, 0x0F, true, 0x59FFFD3⟩])] := by decide
theorem test_decode_ack_and_length :
    answers (.decode 0x5 [0x55, 0x55, 0x54]) State.reset = some [.status .commandNotAcknowledged .nothing] ∧
    answers (.decode 0xA [0x01, 0x02, 0x03]) State.reset = some [.fault 4] := by decide
theorem test_readByte :
    events (.readByte 0x004) (ready [.byte 0, .byte 0, .byte 0x34]) =
      some [.csAssert, .xchg 0x30 0x00, .xchg 0x04 0x00, .xchg 0x00 0x34, .csDeassert] ∧
    answers (.readByte 0x004) (ready [.byte 0, .byte 0, .byte 0x34]) = some [.status .ok (.byte 0x34)] := by decide
theorem test_readByte_range : answers (.readByte 0x1000) State.reset = some [.fault 3] := by decide
theorem test_writeByte :
    events (.writeByte 0x1A5 0x3C) (ready [.byte 1, .byte 2, .byte 3]) =
      some [.csAssert, .xchg 0x61 0x01, .xchg 0xA5 0x02, .xchg 0x3C 0x03, .csDeassert] := by decide
theorem test_writeByte_busError :
    events (.writeByte 0x010 0xAB) (ready [.byte 0, .busError]) =
      some [.csAssert, .xchg 0x60 0x00, .xchgError 0x10, .csDeassert] ∧
    answers (.writeByte 0x010 0xAB) (ready [.byte 0, .busError]) = some [.status .busError .nothing] := by decide
theorem test_burnEeprom :
    answers .burnEeprom (ready [.byte 0, .byte 0, .byte 0x55]) = some [.status .ok .nothing] := by decide
theorem test_burnEeprom_locked : answers .burnEeprom locked = some [.status .powerCycleRequired .nothing] := by decide
theorem test_setZero :
    events .setZero (ready [.byte 0, .byte 0, .byte 0xAA]) =
      some [.csAssert, .xchg 0x50 0x00, .xchg 0x00 0x00, .xchg 0x00 0xAA, .csDeassert] ∧
    answers .setZero (ready [.byte 0, .byte 0, .byte 0xAA]) = some [.status .commandNotAcknowledged .nothing] := by
  decide
theorem test_xfer_priority :
    answers (.xfer 0x3 0x1000 0) { streaming 0 [] with pwrCycleLock := true } = some [.fault 3] ∧
    answers (.xfer 0x3 0xFFF 0) { streaming 0 [] with pwrCycleLock := true } = some [.fault 5] := by decide
theorem test_xfer_burst_illegal : answers (.xfer 0xA 0x003 0) locked = some [.fault 2] := by decide
theorem test_reservedOp : answers (.reservedOp 3) State.reset = some [.fault 1] := by decide
theorem test_reservedOp_halted : answers (.reservedOp 1) halted = some [.fault 6] := by decide

/-! Angle: V-ASM, V-CNV, V-CAL, V-RA. -/

theorem test_assemble :
    answers (.assemble 0x13 0x34 0x56 0x7C) State.reset =
      some [.status .ok (.sample ⟨0x02668A, 0b110, 0x7C, 0x17, false, 0x06C0642⟩)] := by decide
theorem test_convert : convert 0x1FFFFF = 0x59FFFD3 ∧ convert 0x1579BD = 0x3C66639 := by decide
theorem test_floatOut :
    floatOut .binary32 0x1FFFFF = .binary32 0x43B3FFFA ∧ floatOut .binary32 0x080000 = .binary32 0x42B40000 ∧
    floatOut .binary64 0x080000 = .binary64 0x4056800000000000 := by decide
/-- The angleDegrees of V-CNV-18 in each format of ANGLE_FLOAT (R159): the exact degrees, 359.99981689453125 as binary32
(six steps of 2^-15 below 360), and the exact degrees as binary64 (45·2^26 steps of 2^-44 below 360). -/
theorem test_angleSample :
    (angleSampleOf .none (assemble 0xFF 0xFF 0xFF 0x0F)).angleDegrees = .fixed 0x59FFFD3 ∧
    (angleSampleOf .binary32 (assemble 0xFF 0xFF 0xFF 0x0F)).angleDegrees = .binary32 (0x43B40000 - 6) ∧
    (angleSampleOf .binary64 (assemble 0xFF 0xFF 0xFF 0x0F)).angleDegrees =
      .binary64 (0x4076800000000000 - 45 * 2 ^ 26) := by decide

theorem test_statusFlags :
    answers (.statusFlags 0b110) State.reset = some [.status .ok (.flags ⟨true, true, false⟩)] := by decide
theorem test_calDecode :
    answers (.calDecode 0x3F) State.reset = some [.status .ok (.cal .notRun)] ∧
    answers (.calDecode 0xBF) State.reset = some [.status .ok (.cal .failed)] := by decide

/-- The bus input of P1, with 0x00 in every slot but slot 2. -/
def p1Bytes : List Byte := [0, 0, 0x12, 0, 0, 0x34, 0, 0, 0x56, 0, 0, 0x7C]

theorem test_readAngle :
    answers .readAngle (ready (p1Bytes.map .byte)) =
      some [.status .ok (.sample ⟨0x02468A, 0b110, 0x7C, 0x7C, true, 0x0666642⟩)] ∧
    (events .readAngle (ready (p1Bytes.map .byte))).map (·.length) = some 20 := by decide

/-- Program P2. Its listing of the events has 5, 5 and 4 of them; its text says 13 in all (log entry 13). -/
theorem test_readAngle_busError :
    answers .readAngle (ready ((p1Bytes.take 7).map .byte ++ [.busError])) = some [.status .busError .nothing] ∧
    (events .readAngle (ready ((p1Bytes.take 7).map .byte ++ [.busError]))).map (·.drop 10) =
      some [.csAssert, .xchg 0x30 0x00, .xchgError 0x05, .csDeassert] := by decide

/-! Stream: V-STR, V-FLT. -/

theorem test_streamStart :
    (after .streamStart (ready [.byte 7, .byte 9])).map (fun t => (t.strmActive, t.strmIdx, t.trace)) =
      some (true, 0, [.csAssert, .xchg 0xA0 0x07, .xchg 0x03 0x09]) := by decide
theorem test_readAngleBurst_busError :
    events .readAngleBurst (ready [.byte 0, .busError]) =
      some [.csAssert, .xchg 0xA0 0x00, .xchgError 0x03, .csDeassert] := by decide
theorem test_streamByte_sample :
    answers .streamByte (streaming 3 [.byte 0x7C]) =
      some [.status .ok (.sample ⟨0x02468A, 0b110, 0x7C, 0x7C, true, 0x0666642⟩)] := by decide
theorem test_streamByte_idle : answers .streamByte State.reset = some [.fault 6] := by decide
theorem test_streamStop_midGroup :
    (after .streamStop (streaming 2 [])).map (fun t => (t.fault, t.faultCause, t.strmActive, t.strmIdx)) =
      some (true, 7, true, 2) := by decide
theorem test_streamStop_idle :
    answers .streamStop State.reset = some [.status .ok .nothing] ∧ events .streamStop State.reset = some [] := by decide

/-! Reset, the step and the text form. -/

theorem test_rst_open_stream :
    (streaming 2 []).rst.trace = (streaming 2 []).trace ++ [.csDeassert] ∧ (streaming 2 []).rst.strmActive = false ∧
    locked.rst = locked := by decide

/-- RST after three bus events of a READ_BYTE: two slots stay, CS_DEASSERT follows, nothing is answered (R232). -/
theorem test_step_requestRst :
    step { ready [.byte 1, .byte 2, .byte 3] with inputs := [.requestRst [0x30, 0x04, 0x00] 3] } =
      .next { ready [.byte 3] with
        trace := [.csAssert, .xchg 0x30 0x01, .xchg 0x04 0x02, .csDeassert] } := by rfl

/-- RST inside a STREAM_BYTE of an open stream: one CS_DEASSERT (log entry 15). -/
theorem test_step_requestRst_stream :
    step { streaming 1 [.byte 7] with inputs := [.requestRst [0x0A] 1] } =
      .next { ready [] with trace := (streaming 1 []).trace ++ [.xchg 0x00 7, .csDeassert] } := by rfl

/-- A READ_ANGLE presented right after reset is run by the next step, whatever the bus answers. -/
theorem test_step_runs_presented :
    step (State.reset.withFetchWord 8 0x8) = exec .readAngle State.reset := by rfl

theorem test_parse_encode :
    parseLine "ENCODE WRITE_BYTE, 0x1A5, 0x3C".toList = some (.request (.encode 0x6 0x1A5 0x3C)) := by decide
theorem test_parse_decode :
    parseLine "DECODE SET_ZERO, [0xFF, 0xFF, 0xAA] ; ack".toList =
      some (.request (.decode 0x5 [0xFF, 0xFF, 0xAA])) := by decide
theorem test_parse_pseudo :
    parseLine "READB 0x004".toList = some (.pseudo (.readB 0x004)) ∧ parseLine "POLL_CAL".toList = some (.pseudo .pollCal) ∧
    parseLine "ENCODE READ_BYTE, 0x10000".toList = none := by decide

/-! Witnesses: states and operands that meet the hypotheses of each statement. -/

theorem witness_RstBetweenRequests :
    let s := { streaming 2 [] with inputs := [.rst, .request [0x08]] }
    s.inputs = .rst :: [.request [0x08]] ∧ s.busHung = false ∧ decode [0x08] = .ok .readAngle := by decide

theorem witness_RstInsideRequest :
    let s := { ready [.byte 1, .byte 2, .byte 3] with inputs := [.requestRst [0x30, 0x04, 0x00] 3] }
    s.busHung = false ∧ s.inputs = .requestRst [0x30, 0x04, 0x00] 3 :: [] ∧
    decode [0x30, 0x04, 0x00] = .ok (.readByte 4) ∧
    ∃ u, exec (.readByte 4) { s with inputs := [] } = .next u ∧
      u.trace = s.trace ++ [.csAssert, .xchg 0x30 0x01, .xchg 0x04 0x02, .xchg 0x00 0x03, .csDeassert] :=
  ⟨rfl, rfl, by decide, _, rfl, by decide⟩

theorem witness_RstInsideRequest_hung :
    let s := { ready [] with busHung := true, inputs := [.rst] }
    s.inputs = .rst :: [] ∧ s.busHung = true := by decide

theorem witness_StepRunsPresentedRequest :
    let s := { ready [] with inputs := [.request [0xA0, 0x03]] }
    s.busHung = false ∧ s.inputs = .request [0xA0, 0x03] :: [] ∧ decode [0xA0, 0x03] = .ok .readAngleBurst ∧
    State.reset.busHung = false ∧ State.reset.inputs = [] := by decide

theorem witness_StepRunsPresentedRequest_refused :
    let s := { ready [] with inputs := [.request [0x00]] }
    let t := { ready [] with inputs := [.requestRst [0xF0, 0x00, 0x00] 1] }
    s.busHung = false ∧ s.inputs = .request [0x00] :: [] ∧ decode [0x00] = .error .truncated ∧
    t.busHung = false ∧ t.inputs = .requestRst [0xF0, 0x00, 0x00] 1 :: [] ∧
    decode [0xF0, 0x00, 0x00] = .error (.reservedWireOpcode 0xF) := by decide

theorem witness_LockIsOnlyAnInput :
    ({ ready [] with inputs := [.lock true] } : State).inputs = .lock true :: [] ∧
    ∃ t, exec .streamStart (ready []) = .next t := ⟨rfl, _, rfl⟩

theorem witness_UnansweredSlotHasNoStep :
    step { ready [] with busHung := true, inputs := [.request [0x08]] } = .fault .busNeverAnswers := by rfl

theorem witness_HaltedBlockAnswersFault : halted.fault = true := by decide

theorem witness_FaultStaysUntilReset :
    (∃ t, exec .streamByte State.reset = .next t ∧ t.fault ≠ State.reset.fault) ∧
    halted.fault = true ∧
    (∃ t, step { halted with inputs := [.request [0x08]] } = .next t) ∧
    (∀ rest, ({ halted with inputs := [.request [0x08]] } : State).inputs ≠ .rst :: rest) ∧
    ∀ bytes n rest, ({ halted with inputs := [.request [0x08]] } : State).inputs ≠ .requestRst bytes n :: rest :=
  ⟨⟨_, rfl, by decide⟩, rfl, ⟨_, rfl⟩, by simp, by simp⟩

/-- Every fault of R202 is met by some request, and a boundary where no clause of the table holds by none. -/
theorem witness_FaultRaisedExactlyByCause :
    State.reset.fault = false ∧ (streaming 1 []).fault = false ∧
    contractFault (.reservedOp 0) State.reset = some 1 ∧
    contractFault (.encode 0x0 0x1000 0) State.reset = some 2 ∧
    contractFault (.xfer 0xA 0 0) State.reset = some 2 ∧
    contractFault (.writeByte 0x1000 0) (streaming 0 []) = some 3 ∧
    contractFault (.writeByte 0x0FFF 0) State.reset = none ∧
    contractFault (.encode 0xC 0xFFFF 0) State.reset = none ∧
    contractFault (.decode 0xA [0]) State.reset = some 4 ∧
    contractFault (.decode 0xA [0, 0]) State.reset = none ∧
    contractFault (.decode 0x3 [0, 0]) State.reset = some 4 ∧
    contractFault .readAngle (streaming 0 []) = some 5 ∧
    contractFault .streamByte State.reset = some 6 ∧
    contractFault .streamStop (streaming 1 []) = some 7 ∧
    contractFault .streamStop (streaming 0 []) = none := by decide

theorem witness_OneResponsePerRequest : State.reset.busHung = false := by decide

theorem witness_LockRefusesBusRequests :
    locked.fault = false ∧ opensBus (.writeByte 0x003 0) = true ∧ contractFault (.writeByte 0x003 0) locked = none ∧
    locked.pwrCycleLock = true ∧ opensBus .streamByte = false ∧
    ∃ t, exec .streamByte (streaming 0 [.byte 0x80]) = .next t := ⟨rfl, rfl, rfl, rfl, rfl, _, rfl⟩

/-- A state in the middle of a group meets the invariants, and takes a step. -/
theorem witness_StepKeepsInvariants :
    BlockInv { streaming 1 [.byte 5] with inputs := [.request [0x0A]] } ∧
    ∃ t, step { streaming 1 [.byte 5] with inputs := [.request [0x0A]] } = .next t := by
  refine ⟨⟨fun h => by simp [streaming] at h, ?_, ?_⟩, _, rfl⟩
  · unfold FaultRecord
    decide
  · exact ⟨1, by decide, by decide⟩

theorem witness_StepOnlyAppends : ∃ t, step { ready [] with inputs := [.rst] } = .next t := ⟨_, rfl⟩

theorem witness_PureRequestsFrame :
    touchesNoBus (.decode 0x0 []) = true ∧ ∃ t, exec (.decode 0x0 []) State.reset = .next t := ⟨rfl, _, rfl⟩

theorem witness_OnlyStreamRequestsWriteAligner :
    writesAligner .readAngle = false ∧ ∃ t, exec .readAngle (ready (p1Bytes.map .byte)) = .next t := ⟨rfl, _, rfl⟩

theorem witness_UnreadBufferIsUnobservable :
    AgreeUpToBuffer (streaming 1 []) { streaming 1 [] with strmBuf1 := 0xEE, strmBuf2 := 0xDD } := by
  unfold AgreeUpToBuffer
  decide

/-- The hypotheses of EncodeBuildsFrame at the edges of the address range. -/
theorem witness_EncodeBuildsFrame :
    State.reset.fault = false ∧ (0x0FFF : Addr).toNat < 4096 ∧ 4096 ≤ (0x1000 : Addr).toNat ∧
    (0x0 : Cmd) ∉ ([0x3, 0x6, 0xC, 0x5, 0xA] : List Cmd) := by decide

theorem witness_DecodeReadsReply :
    State.reset.fault = false ∧ ([0, 0] : List Byte).length ≠ 3 ∧ ([0] : List Byte).length < 2 ∧
    (([0, 0, 0] : List Byte).length - 2) % 4 ≠ 0 ∧ (0xF : Cmd) ∉ ([0x3, 0x6, 0xC, 0x5, 0xA] : List Cmd) := by decide

/-- The state of XferCompletes, ReadByteCompletes, WriteByteCompletes and AcknowledgedCommandsComplete, at both ends of
the address range and with an answer that is the acknowledgement and one that is not. -/
theorem witness_transfers_complete :
    let s := ready [.byte 1, .byte 2, .byte 0x55]
    let t := ready [.byte 1, .byte 2, .byte 0x54]
    s.fault = false ∧ s.strmActive = false ∧ s.pwrCycleLock = false ∧
    Answered s [1, 2, 0x55] ∧ Answered t [1, 2, 0x54] ∧ (0 : Addr).toNat < 4096 ∧ (0x0FFF : Addr).toNat < 4096 := by
  decide

/-- BusErrorEndsTransfer with the failing slot first, and last, at the last address of READ_BYTE and at one that an
ignored operand may hold. -/
theorem witness_BusErrorEndsTransfer :
    let s := ready [.busError]
    let t := ready [.byte 1, .byte 2, .busError]
    SendsFrame (.xfer 0xC 0x1000 0) [0xC0, 0x00, 0x00] ∧ SendsFrame (.readByte 0x0FFF) [0x3F, 0xFF, 0x00] ∧
    s.fault = false ∧ s.strmActive = false ∧ s.pwrCycleLock = false ∧ Answered s [] ∧ s.slotAnswer 0 = .busError ∧
    Answered t [1, 2] ∧ t.slotAnswer 2 = .busError ∧ ([1, 2] : List Byte).length < 3 :=
  ⟨.xferBurnEeprom 0x1000 0, .readByte 0x0FFF (by decide), by decide⟩

theorem witness_XferDependsOnThreeSlots :
    let s := ready [.byte 1, .byte 2, .byte 3]
    let t := { ready [.byte 1, .byte 2, .byte 3, .busError] with strmBuf0 := 9, responses := [.status .ok .nothing] }
    s.fault = false ∧ t.fault = false ∧ s.pwrCycleLock = t.pwrCycleLock ∧ s.strmActive = t.strmActive ∧
    (∀ k, k < 3 → s.slotAnswer k = t.slotAnswer k) ∧
    (∃ s', exec (.xfer 0x3 4 0) s = .next s') ∧ ∃ t', exec (.xfer 0x3 4 0) t = .next t' :=
  ⟨rfl, rfl, rfl, rfl, by decide, ⟨_, rfl⟩, _, rfl⟩

theorem witness_pure_requests_complete : State.reset.fault = false := by decide

theorem witness_CrcDetectsErrors : frameValid 0x1234567C = true ∧ (0x01 : Byte) ≠ 0 := by decide

theorem witness_ConvertLaws :
    (0x1FFFFE : Raw).toNat < (0x1FFFFF : Raw).toNat ∧ (0x1FFFFF : Raw).toNat = (0x1FFFFE : Raw).toNat + 1 := by decide

theorem witness_FloatOutBinary32IsNearestEven :
    binary32Finite 0x43B3FFFB = true ∧ binary32Finite 0x7F800000 = false := by decide

theorem witness_AngleSampleMapsSample :
    (AngleFloat.none = .none) ∧ AngleFloat.binary32 ≠ .none ∧ AngleFloat.binary64 ≠ .none := by decide

theorem witness_ReadAngleCompletes :
    let s := ready (p1Bytes.map .byte)
    s.fault = false ∧ s.strmActive = false ∧ s.pwrCycleLock = false ∧
    Answered s [0, 0, 0x12, 0, 0, 0x34, 0, 0, 0x56, 0, 0, 0x7C] := by decide

/-- ReadAngleAbortsOnBusError with the first, and the last, of the twelve slots failing. -/
theorem witness_ReadAngleAbortsOnBusError :
    let s := ready [.busError]
    let t := ready ((p1Bytes.take 11).map .byte ++ [.busError])
    s.fault = false ∧ s.strmActive = false ∧ s.pwrCycleLock = false ∧ Answered s [] ∧ s.slotAnswer 0 = .busError ∧
    Answered t (p1Bytes.take 11) ∧ (p1Bytes.take 11).length < 12 ∧
    t.slotAnswer (p1Bytes.take 11).length = .busError := by decide

theorem witness_StreamMatchesSingleShot :
    let s := ready (p1Bytes.map .byte)
    let u := streaming 0 [.byte 0x12, .byte 0x34, .byte 0x56, .byte 0x7C]
    s.fault = false ∧ s.strmActive = false ∧ s.pwrCycleLock = false ∧ Answered s p1Bytes ∧
    u.fault = false ∧ u.strmActive = true ∧ u.strmIdx = 0 ∧ Answered u [0x12, 0x34, 0x56, 0x7C] := by decide

theorem witness_StreamStartOpensStream :
    let s := ready [.byte 0, .byte 0]
    s.fault = false ∧ s.strmActive = false ∧ s.pwrCycleLock = false ∧ Answered s [0, 0] ∧
    (ready [.busError]).slotAnswer 0 = .busError ∧
    Answered (ready [.byte 3, .busError]) [3] ∧ (ready [.byte 3, .busError]).slotAnswer 1 = .busError := by decide

/-- StreamByteTakesGroupByte at each of the four places of a group. -/
theorem witness_StreamByteTakesGroupByte :
    ∀ idx : BitVec 2, (streaming idx [.byte 0x80]).fault = false ∧ (streaming idx [.byte 0x80]).strmActive = true ∧
      Answered (streaming idx [.byte 0x80]) [0x80] ∧ (streaming idx [.byte 0x80]).strmIdx = idx := by decide

theorem witness_StreamByteBusErrorEndsStream :
    (streaming 2 [.busError]).fault = false ∧ (streaming 2 [.busError]).strmActive = true ∧
    (streaming 2 [.busError]).slotAnswer 0 = .busError := by decide

theorem witness_StreamStopOnlyAtBoundary :
    (streaming 0 []).fault = false ∧ (streaming 0 []).strmActive = true ∧ (streaming 0 []).strmIdx = 0 ∧
    (streaming 3 []).fault = false ∧ (streaming 3 []).strmActive = true ∧ (streaming 3 []).strmIdx ≠ 0 ∧
    State.reset.fault = false ∧ State.reset.strmActive = false := by decide

theorem witness_PseudoOpsExpand :
    (∃ t, exec (.xfer 0x3 0x113 0) (ready [.byte 0, .byte 0, .byte 0xC0]) = .next t ∧
      t.responses = [] ++ [.status .ok (.byte 0xC0)]) ∧
    ∃ t, exec (.xfer 0x3 0x113 0) (ready [.busError]) = .next t ∧ ∀ r, t.responses ≠ [] ++ [.status .ok r] :=
  ⟨⟨_, rfl, by decide⟩, _, rfl, fun r => by
    show [Response.status .busError .nothing] ≠ _
    simp⟩

/-- The chain of PseudoOpsExpand for STREAM_GROUP, ended by its first request, and by its fourth. -/
theorem witness_PseudoOpsExpand_group :
    (∃ t, exec .streamByte (streaming 0 [.busError]) = .next t ∧ ∀ r, t.responses ≠ [] ++ [.status .ok r]) ∧
    ∃ t1 t2 t3 t4, exec .streamByte (streaming 0 [.byte 1, .byte 2, .byte 3, .byte 4]) = .next t1 ∧
      exec .streamByte t1 = .next t2 ∧ exec .streamByte t2 = .next t3 ∧ exec .streamByte t3 = .next t4 ∧
      t1.responses = [.status .ok .nothing] ∧ t2.responses = t1.responses ++ [.status .ok .nothing] ∧
      t3.responses = t2.responses ++ [.status .ok .nothing] :=
  ⟨⟨_, rfl, fun r => by
    show [Response.status .busError .nothing] ≠ _
    simp⟩, _, _, _, _, rfl, rfl, rfl, rfl, rfl, rfl, rfl⟩

theorem witness_StreamGroupStopsAtBusError :
    let s := streaming 0 [.byte 1, .byte 2, .byte 3, .busError]
    s.fault = false ∧ s.strmActive = true ∧ s.strmIdx = 0 ∧ Answered s [1, 2, 3] ∧ s.slotAnswer 3 = .busError ∧
    (streaming 0 [.busError]).slotAnswer 0 = .busError := by decide

/-- UnansweredSlotHangsRequest in each of its clauses, with the last slot of the request, and for STREAM_BYTE its only one. -/
theorem witness_UnansweredSlotHangsRequest :
    (ready [.never]).fault = false ∧ (ready [.never]).strmActive = false ∧ (ready [.never]).pwrCycleLock = false ∧
    Answered (ready [.never]) [] ∧ (ready [.never]).slotAnswer 0 = .never ∧
    SendsFrame (.xfer 0x5 0xFFFF 0) [0x50, 0x00, 0x00] ∧
    Answered (ready [.byte 1, .byte 2, .never]) [1, 2] ∧ (ready [.byte 1, .byte 2, .never]).slotAnswer 2 = .never ∧
    Answered (ready ((p1Bytes.take 11).map .byte ++ [.never])) (p1Bytes.take 11) ∧
    (ready ((p1Bytes.take 11).map .byte ++ [.never])).slotAnswer (p1Bytes.take 11).length = .never ∧
    Answered (ready [.byte 3, .never]) [3] ∧ (ready [.byte 3, .never]).slotAnswer 1 = .never ∧
    (streaming 2 [.never]).fault = false ∧ (streaming 2 [.never]).strmActive = true ∧
    Answered (streaming 2 [.never]) [] ∧ (streaming 2 [.never]).slotAnswer 0 = .never :=
  ⟨rfl, rfl, rfl, by decide, rfl, .xferSetZero 0xFFFF 0, by decide⟩

theorem witness_DecodeOfEncode : (Instr.writeByte 0x0FFF 0xFF).wellFormed = true := by decide

theorem witness_EncodeOfDecode :
    decode [0x3F, 0xFF, 0x99] = .ok (.readByte 0xFFF) ∧ decode [0x0C] = .ok (.reservedOp 0) := by decide

theorem witness_ReservedOpcodesRefused :
    (0x0 : Cmd) ∈ ([0x0, 0x1, 0x2, 0x4, 0x7, 0x8, 0x9, 0xB, 0xD, 0xE, 0xF] : List Cmd) ∧
    (0xC : Cmd) ∈ ([0x3, 0x6, 0xC, 0x5] : List Cmd) := by decide

end Sys2Proof.Tests
end

section
/-! What a request can do, said once for all requests: its body once the block is not halted, what it may change
before it ends, and how it ends. -/

namespace Sys2Proof.Proofs

open Sys2Proof.Machine Sys2Proof.Safety Sys2Proof.Laws

/-- What each request does in a block that is not halted: the body of its meaning after check 1 of R206. -/
def body : Instr → State → State
  | .readByte addr => fun s => s.transfer .readByte addr 0
  | .writeByte addr data => fun s => s.transfer .writeByte addr data
  | .burnEeprom => fun s => s.transfer .burnEeprom 0 0
  | .setZero => fun s => s.transfer .setZero 0 0
  | .readAngleBurst => State.openStream
  | .encode cmd addr data => fun s => s.conclude (encodeVerdict cmd addr data)
  | .decode cmd ins => fun s => s.conclude (decodeVerdict cmd ins)
  | .crc8 payload => fun s => s.answer .ok (.byte (crc8 payload))
  | .assemble b0 b1 b2 b3 => fun s => s.answer .ok (.sample (assemble b0 b1 b2 b3))
  | .convert raw => fun s => s.answer .ok (.degrees (convert raw) (floatOut Config.angleFloat raw))
  | .statusFlags status => fun s => s.answer .ok (.flags (statusFlagsOf status))
  | .calDecode v => fun s => s.answer .ok (.cal (calStateOf v))
  | .xfer cmd addr data => fun s =>
    match WireCmd.ofCode cmd with
    | none => s.raiseFault .illegalCmd
    | some .readAngleBurst => s.raiseFault .illegalCmd
    | some w => s.transfer w addr data
  | .readAngle => fun s => s.openBus fun s =>
    match s.readRegs Config.angleRegs with
    | (.bytes bs, t) => t.answer .ok (angleResult bs)
    | (.busError, t) => t.answer .busError .nothing
    | (.hung, t) => t
  | .streamStart => State.openStream
  | .streamByte => fun s =>
    if s.strmActive then
      match s.busXchg Config.dummyByte with
      | (.byte r, t) => t.takeGroupByte r
      | (.busError, t) => t.abortStream
      | (.never, t) => t.hang
    else s.raiseFault .streamNotActive
  | .streamStop => fun s =>
    if s.strmActive then
      if s.strmIdx = 0 then { s.emit [.csDeassert] with strmActive := false }.answer .ok .nothing
      else s.raiseFault .stopMidGroup
    else s.answer .ok .nothing
  | .reservedOp _ => fun s => s.raiseFault .reservedOp

/-- Every request answers a next state: its body, behind check 1 of R206. -/
theorem exec_eq (i : Instr) (s : State) : exec i s = .next (s.accept (body i)) := by cases i <;> rfl

theorem exec_halted {s : State} (h : s.fault = true) (i : Instr) :
    exec i s = .next (s.respond (.fault s.faultCause)) := by rw [exec_eq, accept_halted h]

theorem exec_running {s : State} (h : s.fault = false) (i : Instr) : exec i s = .next (body i s) := by
  rw [exec_eq, accept_running h]

/-- XFER raises IllegalCmd, or is the transfer of one of the four three-slot commands (R79, R102). -/
theorem body_xfer_cases (cmd : Cmd) (addr : Addr) (data : Byte) (s : State) :
    body (.xfer cmd addr data) s = s.raiseFault .illegalCmd ∨
      ∃ w, WireCmd.ofCode cmd = some w ∧ body (.xfer cmd addr data) s = s.transfer w addr data := by
  rcases h : WireCmd.ofCode cmd with _ | w
  · exact .inl (by simp [body, h])
  · cases w
    case readAngleBurst => exact .inl (by simp [body, h])
    all_goals exact .inr ⟨_, rfl, by simp [body, h]⟩

/-! The two requests of an open stream, by case (R184, R185, R187). -/

theorem streamByte_inactive {s : State} (ha : s.strmActive = false) :
    body .streamByte s = s.raiseFault .streamNotActive := by simp [body, ha]

theorem streamByte_byte {s : State} (ha : s.strmActive = true) {r : Byte} (hs : s.slotAnswer 0 = .byte r) :
    body .streamByte s = ((s.skipSlots 1).emit [.xchg Config.dummyByte r]).takeGroupByte r := by
  simp [body, ha, busXchg_byte hs]

theorem streamByte_busError {s : State} (ha : s.strmActive = true) (hs : s.slotAnswer 0 = .busError) :
    body .streamByte s = ((s.skipSlots 1).emit [.xchgError Config.dummyByte]).abortStream := by
  simp [body, ha, busXchg_busError hs]

theorem streamByte_never {s : State} (ha : s.strmActive = true) (hs : s.slotAnswer 0 = .never) :
    body .streamByte s = (s.skipSlots 1).hang := by simp [body, ha, busXchg_never hs]

theorem streamStop_inactive {s : State} (ha : s.strmActive = false) :
    body .streamStop s = s.answer .ok .nothing := by simp [body, ha]

theorem streamStop_boundary {s : State} (ha : s.strmActive = true) (hi : s.strmIdx = 0) :
    body .streamStop s = { s.emit [.csDeassert] with strmActive := false }.answer .ok .nothing := by
  simp [body, ha, hi]

theorem streamStop_midGroup {s : State} (ha : s.strmActive = true) (hi : s.strmIdx ≠ 0) :
    body .streamStop s = s.raiseFault .stopMidGroup := by
  simp only [body, ha, if_true, if_neg hi]

/-! What happens before a request ends. -/

/-- From s to u slots took their answers and events were emitted, and nothing else happened. -/
def BusUsed (s u : State) : Prop := ∃ k es, u = (s.skipSlots k).emit es

theorem BusUsed.refl (s : State) : BusUsed s s := ⟨0, [], by simp⟩

theorem BusUsed.trans {s u v : State} : BusUsed s u → BusUsed u v → BusUsed s v := by
  rintro ⟨k, es, rfl⟩ ⟨m, fs, rfl⟩
  exact ⟨k + m, es ++ fs, by simp [skipSlots_emit, skipSlots_skipSlots]⟩

theorem BusUsed.fault_eq {s u : State} : BusUsed s u → u.fault = s.fault := by rintro ⟨k, es, rfl⟩; rfl

theorem BusUsed.strmIdx_eq {s u : State} : BusUsed s u → u.strmIdx = s.strmIdx := by rintro ⟨k, es, rfl⟩; rfl

theorem busUsed_emit (s : State) (es : List BusEvent) : BusUsed s (s.emit es) := ⟨0, es, by simp⟩

theorem busUsed_slots (s : State) (outs : List Byte) : BusUsed s (s.slots outs).2 := by
  rcases slots_cases outs s with ⟨_, _, e⟩ | ⟨_, _, _, _, _, _, e⟩ | ⟨_, _, _, _, _, _, e⟩ <;>
    exact ⟨_, _, by rw [e]⟩

/-- The stream aligner s.strm_active, s.strm_idx, s.strm_buf at new values (R22). -/
def withAligner (s : State) (active : Bool) (idx : BitVec 2) (b0 b1 b2 : Byte) : State :=
  { s with strmActive := active, strmIdx := idx, strmBuf0 := b0, strmBuf1 := b1, strmBuf2 := b2 }

/-- From s to u the bus was used and the stream aligner was written, and nothing else happened. -/
def StreamMoved (s u : State) : Prop :=
  ∃ v active idx b0 b1 b2, BusUsed s v ∧ u = withAligner v active idx b0 b1 b2

theorem BusUsed.streamMoved {s u : State} (h : BusUsed s u) : StreamMoved s u :=
  ⟨u, u.strmActive, u.strmIdx, u.strmBuf0, u.strmBuf1, u.strmBuf2, h, rfl⟩

theorem BusUsed.trans_streamMoved {s u v : State} (h : BusUsed s u) : StreamMoved u v → StreamMoved s v := by
  rintro ⟨w, active, idx, b0, b1, b2, hw, rfl⟩
  exact ⟨w, active, idx, b0, b1, b2, h.trans hw, rfl⟩

/-! How a request ends. -/

/-- The ends of a request that has brought the block to u: a status, a fault raised, the fault of a halted block, or
waiting for a slot that is never answered (R28, R29, R200, R205). -/
inductive Ends (u : State) : State → Prop
  | answered (st : Status) (r : Result) : Ends u (u.answer st r)
  | raised (running : u.fault = false) (c : FaultCause) : Ends u (u.raiseFault c)
  | halted (stopped : u.fault = true) : Ends u (u.respond (.fault u.faultCause))
  | waits : Ends u u.hang

theorem ends_conclude {u : State} (h : u.fault = false) (v : Verdict) : Ends u (u.conclude v) := by
  rcases v with c | ⟨st, r⟩
  · exact .raised h c
  · exact .answered st r

/-- How a piece of a request that opens frames may leave the bus: all done, one slot failed, or waiting. -/
def FramesEnd (s : State) (r : SlotsEnd × State) : Prop :=
  ∃ u, BusUsed s u ∧ ((∃ ins, r = (.bytes ins, u)) ∨ r = (.busError, u) ∨ r = (.hung, u.hang))

theorem framesEnd_frame (s : State) (outs : List Byte) : FramesEnd s (s.frame outs) := by
  rcases frame_cases s outs with ⟨ins, _, e⟩ | ⟨_, _, _, _, _, _, e⟩ | ⟨_, _, _, _, _, _, e⟩
  · exact ⟨_, ⟨_, _, rfl⟩, .inl ⟨ins, e⟩⟩
  · exact ⟨_, ⟨_, _, rfl⟩, .inr (.inl e)⟩
  · exact ⟨_, ⟨_, _, rfl⟩, .inr (.inr e)⟩

/-! READ_BYTE frames in a row, by how the first of them ends (R164, R165). -/

theorem readRegs_bytes {s t : State} {a : RegAddr} {ins : List Byte}
    (e : s.frame (outBytes .readByte (a.setWidth 16) 0) = (.bytes ins, t)) (regs : List RegAddr) :
    s.readRegs (a :: regs) = ((t.readRegs regs).1.cons (slotTwo ins), (t.readRegs regs).2) := by
  rw [State.readRegs, e]

theorem readRegs_busError {s t : State} {a : RegAddr}
    (e : s.frame (outBytes .readByte (a.setWidth 16) 0) = (.busError, t)) (regs : List RegAddr) :
    s.readRegs (a :: regs) = (.busError, t) := by rw [State.readRegs, e]

theorem readRegs_hung {s t : State} {a : RegAddr}
    (e : s.frame (outBytes .readByte (a.setWidth 16) 0) = (.hung, t)) (regs : List RegAddr) :
    s.readRegs (a :: regs) = (.hung, t) := by rw [State.readRegs, e]

theorem framesEnd_readRegs (regs : List RegAddr) : ∀ s : State, FramesEnd s (s.readRegs regs) := by
  induction regs with
  | nil => exact fun s => ⟨s, .refl s, .inl ⟨[], rfl⟩⟩
  | cons a regs ih =>
    intro s
    obtain ⟨u, hu, ⟨ins, e⟩ | e | e⟩ := framesEnd_frame s (outBytes .readByte (a.setWidth 16) 0)
    · obtain ⟨v, hv, ⟨more, e'⟩ | e' | e'⟩ := ih u
      · exact ⟨v, hu.trans hv, .inl ⟨slotTwo ins :: more, by rw [readRegs_bytes e, e']; rfl⟩⟩
      · exact ⟨v, hu.trans hv, .inr (.inl (by rw [readRegs_bytes e, e']; rfl))⟩
      · exact ⟨v, hu.trans hv, .inr (.inr (by rw [readRegs_bytes e, e']; rfl))⟩
    · exact ⟨u, hu, .inr (.inl (readRegs_busError e regs))⟩
    · exact ⟨u, hu, .inr (.inr (readRegs_hung e regs))⟩

/-- A request that opens a frame ends by BusBusy, by PowerCycleRequired, or as what follows these checks does. -/
theorem openBus_ends {P : State → Prop} {s : State} {run : State → State} (h : s.fault = false) (hs : P s)
    (hrun : ∃ u, P u ∧ Ends u (run s)) : ∃ u, P u ∧ Ends u (s.openBus run) := by
  rcases ha : s.strmActive
  · rcases hl : s.pwrCycleLock
    · rwa [openBus_free ha hl]
    · exact ⟨s, hs, openBus_locked ha hl run ▸ .answered _ _⟩
  · exact ⟨s, hs, openBus_busy ha run ▸ .raised h _⟩

theorem transfer_ends {s : State} (h : s.fault = false) (w : WireCmd) (addr : Addr) (data : Byte) :
    ∃ u, BusUsed s u ∧ Ends u (s.transfer w addr data) := by
  rcases ho : addrOk w addr
  · exact ⟨s, .refl s, by simpa [State.transfer, ho] using .raised h _⟩
  · simp only [State.transfer, ho, if_true]
    apply openBus_ends h (.refl s)
    obtain ⟨u, hu, ⟨ins, e⟩ | e | e⟩ := framesEnd_frame s (outBytes w addr data)
    · exact ⟨u, hu, by simpa only [e] using ends_conclude (hu.fault_eq.trans h) _⟩
    · exact ⟨u, hu, by simpa only [e] using .answered _ _⟩
    · exact ⟨u, hu, by simpa only [e] using .waits⟩

theorem readAngle_ends {s : State} (h : s.fault = false) : ∃ u, BusUsed s u ∧ Ends u (body .readAngle s) := by
  apply openBus_ends h (.refl s)
  obtain ⟨u, hu, ⟨ins, e⟩ | e | e⟩ := framesEnd_readRegs Config.angleRegs s
  · exact ⟨u, hu, by simpa only [e] using .answered _ _⟩
  · exact ⟨u, hu, by simpa only [e] using .answered _ _⟩
  · exact ⟨u, hu, by simpa only [e] using .waits⟩

/-- A request that is no stream request uses the bus at most, and ends. -/
theorem body_ends {i : Instr} {s : State} (hi : writesAligner i = false) (h : s.fault = false) :
    ∃ u, BusUsed s u ∧ Ends u (body i s) := by
  have here {t : State} (ht : Ends s t) : ∃ u, BusUsed s u ∧ Ends u t := ⟨s, .refl s, ht⟩
  cases i with
  | readByte addr => exact transfer_ends h _ _ _
  | writeByte addr data => exact transfer_ends h _ _ _
  | burnEeprom => exact transfer_ends h _ _ _
  | setZero => exact transfer_ends h _ _ _
  | readAngle => exact readAngle_ends h
  | xfer cmd addr data =>
    rcases body_xfer_cases cmd addr data s with e | ⟨w, _, e⟩
    · exact here (e ▸ .raised h _)
    · exact e ▸ transfer_ends h w addr data
  | encode cmd addr data => exact here (ends_conclude h _)
  | decode cmd ins => exact here (ends_conclude h _)
  | crc8 _ => exact here (.answered _ _)
  | assemble _ _ _ _ => exact here (.answered _ _)
  | convert _ => exact here (.answered _ _)
  | statusFlags _ => exact here (.answered _ _)
  | calDecode _ => exact here (.answered _ _)
  | reservedOp _ => exact here (.raised h _)
  | readAngleBurst => cases hi
  | streamStart => cases hi
  | streamByte => cases hi
  | streamStop => cases hi

/-- Opening a stream leaves the index, or sets it to 0 (R181). -/
theorem openStream_ends {s : State} (h : s.fault = false) :
    ∃ u, (StreamMoved s u ∧ (u.strmIdx = s.strmIdx ∨ u.strmIdx = 0)) ∧ Ends u s.openStream := by
  have used_only {u : State} (hu : BusUsed s u) : StreamMoved s u ∧ (u.strmIdx = s.strmIdx ∨ u.strmIdx = 0) :=
    ⟨hu.streamMoved, .inl hu.strmIdx_eq⟩
  apply openBus_ends h (used_only (.refl s))
  have used := (busUsed_emit s [.csAssert]).trans (busUsed_slots _ (outBytes .readAngleBurst 0 0))
  rcases e : (s.emit [.csAssert]).slots (outBytes .readAngleBurst 0 0) with ⟨ins | _ | _, t⟩ <;> rw [e] at used
  · exact ⟨_, ⟨⟨t, true, 0, t.strmBuf0, t.strmBuf1, t.strmBuf2, used, rfl⟩, .inr rfl⟩, .answered _ _⟩
  · exact ⟨_, used_only (used.trans (busUsed_emit t [.csDeassert])), .answered _ _⟩
  · exact ⟨t, used_only used, .waits⟩

theorem takeGroupByte_ends (s : State) (r : Byte) : ∃ u, StreamMoved s u ∧ Ends u (s.takeGroupByte r) := by
  unfold State.takeGroupByte
  split <;> exact ⟨_, ⟨s, _, _, _, _, _, .refl s, rfl⟩, .answered _ _⟩

theorem streamByte_ends {s : State} (h : s.fault = false) : ∃ u, StreamMoved s u ∧ Ends u (body .streamByte s) := by
  rcases ha : s.strmActive
  · exact ⟨s, (BusUsed.refl s).streamMoved, streamByte_inactive ha ▸ .raised h _⟩
  rcases hs : s.slotAnswer 0 with r | _ | _
  · rw [streamByte_byte ha hs]
    obtain ⟨u, hu, he⟩ := takeGroupByte_ends ((s.skipSlots 1).emit [.xchg Config.dummyByte r]) r
    exact ⟨u, BusUsed.trans_streamMoved ⟨_, _, rfl⟩ hu, he⟩
  · rw [streamByte_busError ha hs]
    exact ⟨_, ⟨_, false, 0, s.strmBuf0, s.strmBuf1, s.strmBuf2,
      BusUsed.trans ⟨1, _, rfl⟩ (busUsed_emit _ _), rfl⟩, .answered _ _⟩
  · rw [streamByte_never ha hs]
    exact ⟨_, BusUsed.streamMoved ⟨1, [], (emit_nil _).symm⟩, .waits⟩

theorem streamStop_ends {s : State} (h : s.fault = false) : ∃ u, StreamMoved s u ∧ Ends u (body .streamStop s) := by
  have here {t : State} (ht : Ends s t) : ∃ u, StreamMoved s u ∧ Ends u t := ⟨s, (BusUsed.refl s).streamMoved, ht⟩
  rcases ha : s.strmActive
  · exact streamStop_inactive ha ▸ here (.answered _ _)
  by_cases hi : s.strmIdx = 0
  · rw [streamStop_boundary ha hi]
    exact ⟨_, ⟨_, false, s.strmIdx, s.strmBuf0, s.strmBuf1, s.strmBuf2, busUsed_emit s _, rfl⟩, .answered _ _⟩
  · exact streamStop_midGroup ha hi ▸ here (.raised h _)

/-- What a request can do: use the bus, and write the stream aligner if it is a stream request; then it ends. -/
theorem exec_ends {i : Instr} {s t : State} (h : exec i s = .next t) :
    ∃ u, StreamMoved s u ∧ (writesAligner i = false → BusUsed s u) ∧ Ends u t := by
  rcases hf : s.fault
  · rw [exec_running hf, Host.Outcome.next.injEq] at h
    subst h
    rcases hi : writesAligner i
    · obtain ⟨u, hu, he⟩ := body_ends hi hf
      exact ⟨u, hu.streamMoved, fun _ => hu, he⟩
    · suffices ∃ u, StreamMoved s u ∧ Ends u (body i s) by
        obtain ⟨u, hu, he⟩ := this
        exact ⟨u, hu, nofun, he⟩
      obtain ⟨u, ⟨hu, -⟩, opened⟩ := openStream_ends hf
      cases i with
      | readAngleBurst => exact ⟨u, hu, opened⟩
      | streamStart => exact ⟨u, hu, opened⟩
      | streamByte => exact streamByte_ends hf
      | streamStop => exact streamStop_ends hf
      | _ => cases hi
  · rw [exec_halted hf, Host.Outcome.next.injEq] at h
    exact ⟨s, (BusUsed.refl s).streamMoved, fun _ => .refl s, h ▸ .halted hf⟩

/-- What a stream request leaves alone on its way to its end. -/
theorem StreamMoved.frame {s u : State} (h : StreamMoved s u) :
    u.fault = s.fault ∧ u.faultCause = s.faultCause ∧ u.pwrCycleLock = s.pwrCycleLock ∧ u.inputs = s.inputs ∧
      u.busHung = s.busHung ∧ u.responses = s.responses ∧ s.trace <+: u.trace := by
  obtain ⟨v, active, idx, b0, b1, b2, ⟨k, es, rfl⟩, rfl⟩ := h
  exact ⟨rfl, rfl, rfl, rfl, rfl, rfl, es, rfl⟩

/-- The end of a request writes the fault record, the responses and the mark of a request that waits, nothing else. -/
theorem Ends.frame {u t : State} (h : Ends u t) :
    t = { u with fault := t.fault, faultCause := t.faultCause, busHung := t.busHung, responses := t.responses } := by
  cases h <;> rfl

end Sys2Proof.Proofs
end

section
/-! The statements on reset, on the lock, on the fault record and on responses (10_state.md rules R21 to R23, R28, R29,
R32; 20_memory.md rule R59). -/

namespace Sys2Proof.Proofs

open Sys2Proof.Machine Sys2Proof.Safety Sys2Proof.Laws

theorem emit_ite (s : State) (c : Bool) (es : List BusEvent) :
    (if c then s.emit es else s) = s.emit (if c then es else []) := by cases c <;> simp

/-- RST resets the fields, after at most one CS_DEASSERT (R230, R232). -/
theorem rst_eq (s : State) :
    s.rst = (s.emit (if s.strmActive || s.busHung then [.csDeassert] else [])).resetFields :=
  congrArg State.resetFields (emit_ite _ _ _)

/-- Settles O1: RST is the reset of the fields. -/
theorem resetFieldValues : Obligations.ResetFieldValues :=
  ⟨fun s => by simp [rst_eq], rfl, rfl, rfl, rfl, rfl, rfl, rfl⟩

/-- The state once the inputs left are `rest`. -/
def withInputs (s : State) (rest : List Input) : State := { s with inputs := rest }

/-! What a step takes up, by the next input (R29). -/

theorem step_lock {s : State} {level : Bool} {rest : List Input} (h : s.inputs = .lock level :: rest) :
    step s = .next { s with inputs := rest, pwrCycleLock := level } := by simp [step, State.fetch, h]

theorem step_rst {s : State} {rest : List Input} (h : s.inputs = .rst :: rest) :
    step s = .next (withInputs s rest).rst := by simp [step, State.fetch, withInputs, h]

theorem step_idle {s : State} (hb : s.busHung = false) (h : s.inputs = []) : step s = .next s := by
  simp [step, State.fetch, hb, h]

theorem step_request {s : State} {bytes : List Byte} {rest : List Input} {i : Instr} (hb : s.busHung = false)
    (h : s.inputs = .request bytes :: rest) (hd : decode bytes = .ok i) :
    step s = exec i (withInputs s rest) := by simp [step, State.fetch, withInputs, hb, h, hd]

theorem step_requestRst {s : State} {bytes : List Byte} {n : Nat} {rest : List Input} {i : Instr}
    (hb : s.busHung = false) (h : s.inputs = .requestRst bytes n :: rest) (hd : decode bytes = .ok i) :
    step s = .next ((withInputs s rest).cutAt ((withInputs s rest).accept (body i)) n) := by
  simp [step, State.fetch, withInputs, hb, h, hd, exec_eq]

theorem step_undecodable {s : State} {bytes : List Byte} {n : Nat} {rest : List Input} {e : DecodeError}
    (hb : s.busHung = false) (h : s.inputs = .request bytes :: rest ∨ s.inputs = .requestRst bytes n :: rest)
    (hd : decode bytes = .error e) : step s = .refused (.undecodable e) := by
  rcases h with h | h <;> simp [step, State.fetch, hb, h, hd]

/-- A request that waits for ever stops every step but RST and a level of the lock (R28). -/
theorem step_stuck {s : State} (hb : s.busHung = true)
    (h : ∀ inp rest, s.inputs = inp :: rest → inp ≠ .rst ∧ ∀ level, inp ≠ .lock level) :
    step s = .fault .busNeverAnswers := by
  rcases hi : s.inputs with _ | ⟨inp, rest⟩
  · simp [step, State.fetch, hb, hi]
  · obtain ⟨hrst, hlock⟩ := h inp rest hi
    cases inp with
    | request bytes => simp [step, State.fetch, hb, hi]
    | requestRst bytes n => simp [step, State.fetch, hb, hi]
    | lock level => exact absurd rfl (hlock level)
    | rst => exact absurd rfl hrst

/-- Settles O4, input by input. -/
theorem stepRunsPresentedRequest : Obligations.StepRunsPresentedRequest :=
  ⟨fun _ _ _ _ hb h hd => step_request hb h hd, fun _ _ _ _ _ hb h hd => step_undecodable hb h hd,
    fun _ hb h => step_idle hb h⟩

/-- A request waits for a slot that is never answered, and what comes next does not end the wait (R28). -/
def Stuck (s : State) : Prop :=
  s.busHung = true ∧ ∀ inp rest, s.inputs = inp :: rest → inp ≠ .rst ∧ ∀ level, inp ≠ .lock level

/-- Anything but RST and a level of the lock is taken up only when no request is running (R29). -/
theorem busHung_of_not_stuck {s : State} {inp : Input} {rest : List Input} (hs : ¬ Stuck s)
    (h : s.inputs = inp :: rest) (hrst : inp ≠ .rst) (hlock : ∀ level, inp ≠ .lock level) : s.busHung = false := by
  refine Bool.eq_false_iff.2 fun hb => hs ⟨hb, fun inp' rest' h' => ?_⟩
  obtain ⟨rfl, -⟩ := List.cons_eq_cons.1 (h.symm.trans h')
  exact ⟨hrst, hlock⟩

theorem busHung_of_not_stuck_nil {s : State} (hs : ¬ Stuck s) (h : s.inputs = []) : s.busHung = false :=
  Bool.eq_false_iff.2 fun hb => hs ⟨hb, by simp [h]⟩

/-- The steps that answer a next state, by what they take up (R29, R59). -/
inductive StepTo (s : State) : State → Prop
  | idle (hb : s.busHung = false) (h : s.inputs = []) : StepTo s s
  | lock {level : Bool} {rest : List Input} (h : s.inputs = .lock level :: rest) :
      StepTo s { s with inputs := rest, pwrCycleLock := level }
  | rst {rest : List Input} (h : s.inputs = .rst :: rest) : StepTo s ((withInputs s rest).rst)
  | request {bytes : List Byte} {rest : List Input} (hb : s.busHung = false) (h : s.inputs = .request bytes :: rest)
      (i : Instr) : StepTo s ((withInputs s rest).accept (body i))
  | requestRst {bytes : List Byte} {n : Nat} {rest : List Input} (hb : s.busHung = false)
      (h : s.inputs = .requestRst bytes n :: rest) (i : Instr) :
      StepTo s ((withInputs s rest).cutAt ((withInputs s rest).accept (body i)) n)

/-- The outcomes of a step. -/
theorem step_outcome (s : State) :
    (Stuck s ∧ step s = .fault .busNeverAnswers) ∨ (∃ r, step s = .refused r) ∨ ∃ t, StepTo s t ∧ step s = .next t := by
  by_cases hs : Stuck s
  · exact .inl ⟨hs, step_stuck hs.1 hs.2⟩
  right
  rcases h : s.inputs with _ | ⟨bytes | level | _ | ⟨bytes, n⟩, rest⟩
  · have hb := busHung_of_not_stuck_nil hs h
    exact .inr ⟨s, .idle hb h, step_idle hb h⟩
  · have hb := busHung_of_not_stuck hs h nofun nofun
    rcases hd : decode bytes with e | i
    · exact .inl ⟨_, step_undecodable (n := 0) hb (.inl h) hd⟩
    · exact .inr ⟨_, .request hb h i, (step_request hb h hd).trans (exec_eq i _)⟩
  · exact .inr ⟨_, .lock h, step_lock h⟩
  · exact .inr ⟨_, .rst h, step_rst h⟩
  · have hb := busHung_of_not_stuck hs h nofun nofun
    rcases hd : decode bytes with e | i
    · exact .inl ⟨_, step_undecodable hb (.inr h) hd⟩
    · exact .inr ⟨_, .requestRst hb h i, step_requestRst hb h hd⟩

theorem stepTo_of_step {s t : State} (h : step s = .next t) : StepTo s t := by
  rcases step_outcome s with ⟨-, e⟩ | ⟨r, e⟩ | ⟨u, hu, e⟩ <;> rw [e] at h
  · cases h
  · cases h
  · exact Host.Outcome.next.inj h ▸ hu

/-- Settles O6: no other outcome of a step is this fault. -/
theorem unansweredSlotHasNoStep : Obligations.UnansweredSlotHasNoStep := by
  intro s
  refine ⟨fun h => ?_, fun ⟨hb, hnext⟩ => step_stuck hb hnext⟩
  rcases step_outcome s with ⟨hs, -⟩ | ⟨r, e⟩ | ⟨u, -, e⟩
  · exact hs
  · cases e.symm.trans h
  · cases e.symm.trans h

/-- Settles O5: every end of a request, and all that comes before it, leaves the lock and the inputs. -/
theorem lockIsOnlyAnInput : Obligations.LockIsOnlyAnInput := by
  refine ⟨fun s level rest h => step_lock h, fun i s t h => ?_⟩
  obtain ⟨u, hu, -, he⟩ := exec_ends h
  obtain ⟨-, -, hlock, hinputs, -⟩ := hu.frame
  rw [he.frame]
  exact ⟨hlock, hinputs⟩

/-- Settles O8: of the ends of a request only a raised fault writes the record, and a halted block has another end. -/
theorem faultStaysUntilReset : Obligations.FaultStaysUntilReset := by
  constructor
  · intro i s t h hchange
    obtain ⟨u, hu, -, he⟩ := exec_ends h
    obtain ⟨hfault, hcause, -, -, -, hresp, -⟩ := hu.frame
    rw [← hfault, ← hcause] at hchange
    cases he with
    | raised running c => exact ⟨hfault ▸ running, rfl, by simp [hresp]⟩
    | answered st r => simp at hchange
    | halted stopped => simp at hchange
    | waits => simp at hchange
  · intro s t hf h hrst hcut
    cases stepTo_of_step h with
    | idle hb hi => simp [hf, Final]
    | lock hi => simp [hf, Final]
    | rst hi => exact absurd hi (hrst _)
    | @request _ rest hb hi i =>
      rw [accept_halted (s := withInputs s rest) hf]
      simp [withInputs, hf, Final]
    | requestRst hb hi i => exact absurd hi (hcut _ _ _)

/-- Settles O11: each end but waiting gives one response. -/
theorem oneResponsePerRequest : Obligations.OneResponsePerRequest := by
  intro i s hb
  obtain ⟨t, ht⟩ : ∃ t, exec i s = .next t := ⟨_, exec_eq i s⟩
  obtain ⟨u, hu, -, he⟩ := exec_ends ht
  obtain ⟨-, -, -, -, hhung, hresp, -⟩ := hu.frame
  refine ⟨t, ht, ?_⟩
  cases he with
  | waits => exact .inl ⟨rfl, hresp⟩
  | _ => exact .inr ⟨hhung.trans hb, _, congrArg (· ++ _) hresp⟩

/-- Settles O17: before its end such a request uses the bus at most. -/
theorem onlyStreamRequestsWriteAligner : Obligations.OnlyStreamRequestsWriteAligner := by
  intro i s t hi h
  obtain ⟨u, -, hu, he⟩ := exec_ends h
  obtain ⟨k, es, rfl⟩ := hu hi
  rw [he.frame]
  rfl

end Sys2Proof.Proofs
end

section
/-! The legality of the bus trace, event by event (10_state.md rule R27; 30_encoding.md rules R70 to R79; 40_codec.md rule
R103). -/

namespace Sys2Proof.Proofs

open Sys2Proof.Machine Sys2Proof.Safety Sys2Proof.Laws

/-! Legal out-bytes. -/

/-- A frame may be cut short after any slot. -/
theorem legalOuts_append_left {xs ys : List Byte} (h : legalOuts (xs ++ ys) = true) : legalOuts xs = true := by
  rcases xs with _ | ⟨o, xs⟩
  · rfl
  rw [List.cons_append] at h
  unfold legalOuts at h ⊢
  rcases hw : WireCmd.ofCode (hiNibble o) with _ | w
  · simp [hw] at h
  cases w <;> simp only [hw] at h ⊢
  case readByte => cases xs <;> simp at h ⊢; exact ⟨by omega, h.2.1⟩
  case writeByte => simp at h ⊢; omega
  case burnEeprom => simp at h ⊢; exact ⟨⟨h.1.1, by omega⟩, h.2.1⟩
  case setZero => simp at h ⊢; exact ⟨⟨h.1.1, by omega⟩, h.2.1⟩
  case readAngleBurst => cases xs <;> simp at h ⊢; exacts [h.1, ⟨h.1, h.2.1, h.2.2.1⟩]

theorem hiNibble_header (opc : Cmd) (addr : RegAddr) : hiNibble ((opc ++ addr).extractLsb' 8 8) = opc := by
  rw [TableRow.header_high, hiNibble, BitVec.extractLsb'_append_eq_left]

/-- The block sends no other frames than those of the five wire commands (R73, R75, R79). -/
theorem legalOuts_outBytes (w : WireCmd) (addr : Addr) (data : Byte) : legalOuts (outBytes w addr data) = true := by
  cases w with
  | readByte => simp [outBytes, header, legalOuts, hiNibble_header]
  | writeByte => simp [outBytes, header, legalOuts, hiNibble_header]
  | burnEeprom => rfl
  | setZero => rfl
  | readAngleBurst => rfl

theorem burstOuts_succ (n : Nat) : burstOuts (n + 1) = burstOuts n ++ [Config.dummyByte] := by
  simp [burstOuts, List.replicate_succ']

theorem legalOuts_burstOuts (n : Nat) : legalOuts (burstOuts n) = true := by
  have hw : WireCmd.ofCode (hiNibble 0xA0) = some .readAngleBurst := by decide
  simp only [burstOuts, legalOuts, hw]
  simp [loNibble]

/-! The bus after more events. -/

theorem busLine_append (a b : List BusEvent) : busLine (a ++ b) = b.foldl BusLine.next (busLine a) :=
  List.foldl_append

theorem foldl_next_broken (es : List BusEvent) : es.foldl BusLine.next .broken = .broken := by
  induction es with
  | nil => rfl
  | cons e es ih => exact ih

/-- No event mends a broken trace. -/
theorem busLine_ne_broken_of_le {a b : List BusEvent} (h : a <+: b) (hb : busLine b ≠ .broken) :
    busLine a ≠ .broken := by
  obtain ⟨c, rfl⟩ := h
  intro ha
  exact hb (by rw [busLine_append, ha, foldl_next_broken])

theorem busLine_xchgEvents (outs : List Byte) : ∀ (ins sent : List Byte), ins.length = outs.length →
    legalOuts (sent ++ outs) = true →
    (xchgEvents outs ins).foldl BusLine.next (.frame sent) = .frame (sent ++ outs) := by
  induction outs with
  | nil => intro ins sent _ _; simp [xchgEvents]
  | cons o outs ih =>
    intro ins sent hl legal
    rcases ins with _ | ⟨i, ins⟩
    · simp at hl
    rw [List.append_cons] at legal ⊢
    rw [← ih ins _ (by simpa using hl) legal]
    simp [xchgEvents, BusLine.next, sendOut, legalOuts_append_left legal]

/-- CS_ASSERT on an idle bus, then slots that answer: the frame is open with their out-bytes sent. -/
theorem busLine_opened {tr : List BusEvent} {outs ins : List Byte} (h : busLine tr = .idle)
    (hl : ins.length = outs.length) (legal : legalOuts outs = true) :
    busLine (tr ++ .csAssert :: xchgEvents outs ins) = .frame outs := by
  simpa [busLine_append, h, BusLine.next] using busLine_xchgEvents outs ins [] hl legal

theorem busLine_csDeassert {tr : List BusEvent} {outs : List Byte} (h : busLine tr = .frame outs) :
    busLine (tr ++ [.csDeassert]) = .idle := by simp [busLine_append, h, BusLine.next]

/-- A slot that fails is followed by CS_DEASSERT (R103, R185). -/
theorem busLine_failed {tr : List BusEvent} {outs : List Byte} {o : Byte} (h : busLine tr = .frame outs)
    (legal : legalOuts (outs ++ [o]) = true) : busLine (tr ++ [.xchgError o, .csDeassert]) = .idle := by
  simp [busLine_append, h, BusLine.next, sendOut, legal]

/-! The chip-select after a legal trace. -/

/-- A frame is open. -/
def lineAsserted : BusLine → Bool
  | .idle => false
  | .frame _ => true
  | .failed => true
  | .broken => false

/-- The chip-select level after one more event. -/
def levelAfter (level : Bool) : BusEvent → Bool
  | .csAssert => true
  | .csDeassert => false
  | .xchg _ _ => level
  | .xchgError _ => level

theorem csAsserted_append_singleton (tr : List BusEvent) (e : BusEvent) :
    csAsserted (tr ++ [e]) = levelAfter (csAsserted tr) e := by
  cases e <;> simp [csAsserted, levelAfter]

theorem sendOut_of_ne_broken {outs : List Byte} {o : Byte} {after : BusLine} (h : sendOut outs o after ≠ .broken) :
    sendOut outs o after = after := by
  by_cases legal : legalOuts (outs ++ [o]) = true
  · simp [sendOut, legal]
  · exact absurd (if_neg legal) h

theorem lineAsserted_next {l : BusLine} {e : BusEvent} (h : l.next e ≠ .broken) :
    lineAsserted (l.next e) = levelAfter (lineAsserted l) e := by
  cases l with
  | idle =>
    cases e with
    | csAssert => rfl
    | _ => exact absurd rfl h
  | frame outs =>
    cases e with
    | csAssert => exact absurd rfl h
    | csDeassert => rfl
    | xchg o i => exact congrArg lineAsserted (sendOut_of_ne_broken h)
    | xchgError o => exact congrArg lineAsserted (sendOut_of_ne_broken h)
  | failed =>
    cases e with
    | csDeassert => rfl
    | _ => exact absurd rfl h
  | broken => exact absurd (foldl_next_broken [e]) h

theorem csAsserted_eq (tr : List BusEvent) : busLine tr ≠ .broken → csAsserted tr = lineAsserted (busLine tr) := by
  induction tr using List.reverseRecOn with
  | nil => intro _; rfl
  | append_singleton tr e ih =>
    intro h
    have ih := ih (busLine_ne_broken_of_le ⟨[e], rfl⟩ h)
    rw [busLine_append] at h ⊢
    rw [csAsserted_append_singleton, ih]
    exact (lineAsserted_next h).symm

/-- An asserted chip-select deasserted: no frame is open (R232). -/
theorem busLine_closed {tr : List BusEvent} (h : busLine tr ≠ .broken) :
    busLine (tr ++ if csAsserted tr then [.csDeassert] else []) = .idle := by
  rw [csAsserted_eq tr h]
  rcases hl : busLine tr with _ | outs | _ | _
  · simpa [lineAsserted] using hl
  · simpa [lineAsserted] using busLine_csDeassert hl
  · simp [busLine_append, lineAsserted, hl, BusLine.next]
  · exact absurd hl h

end Sys2Proof.Proofs
end

section
/-! The invariants of the block and its bus trace hold after reset and are kept by every step (10_state.md rule R25). -/

namespace Sys2Proof.Proofs

open Sys2Proof.Machine Sys2Proof.Safety Sys2Proof.Laws

/-! Ends of requests. -/

theorem blockInv_respond {s : State} (h : BlockInv s) (r : Response) : BlockInv (s.respond r) :=
  ⟨h.aligner, h.faultRecord, h.bus⟩

theorem blockInv_answer {s : State} (h : BlockInv s) (st : Status) (r : Result) : BlockInv (s.answer st r) :=
  blockInv_respond h _

/-- The codes of R202 are 1 to 7. -/
theorem faultCause_code_range (c : FaultCause) : c.code ≠ 0 ∧ c.code.toNat ≤ 7 := by cases c <;> decide

theorem blockInv_raiseFault {s : State} (h : BlockInv s) (c : FaultCause) : BlockInv (s.raiseFault c) := by
  obtain ⟨hne, hle⟩ := faultCause_code_range c
  exact ⟨h.aligner, ⟨by simpa using hne, hle⟩, h.bus⟩

theorem blockInv_conclude {s : State} (h : BlockInv s) (v : Verdict) : BlockInv (s.conclude v) := by
  rcases v with c | ⟨st, r⟩
  · exact blockInv_raiseFault h c
  · exact blockInv_answer h st r

/-! Reset. -/

theorem blockInv_resetFields {s : State} (h : busLine s.trace = .idle) : BlockInv s.resetFields :=
  ⟨fun _ => rfl, by simp [FaultRecord], h⟩

/-- Settles O13: after reset no frame has been opened. -/
theorem resetMeetsInvariants : Obligations.ResetMeetsInvariants :=
  blockInv_resetFields (s := State.reset) rfl

theorem blockInv_line_ne_broken {s : State} (h : BlockInv s) : busLine s.trace ≠ .broken := by
  have hbus := h.bus
  unfold BusAgrees at hbus
  split_ifs at hbus
  · obtain ⟨n, hline, -⟩ := hbus
    simp [hline]
  · obtain ⟨outs, hline⟩ := hbus
    simp [hline]
  · simp [hbus]

/-- The chip-select is asserted exactly when a stream is open or a request waits (R25). -/
theorem blockInv_csAsserted {s : State} (h : BlockInv s) : csAsserted s.trace = (s.strmActive || s.busHung) := by
  rw [csAsserted_eq _ (blockInv_line_ne_broken h)]
  have hbus := h.bus
  unfold BusAgrees at hbus
  split_ifs at hbus with ha hb
  · obtain ⟨n, hline, -⟩ := hbus
    simp [hline, lineAsserted, ha]
  · obtain ⟨outs, hline⟩ := hbus
    simp [hline, lineAsserted, hb]
  · simp [hbus, lineAsserted, ha, hb]

/-- RST closes the frame of an open stream or of a request that waits (R230, R232). -/
theorem blockInv_rst {s : State} (h : BlockInv s) : BlockInv s.rst := by
  rw [rst_eq, ← blockInv_csAsserted h]
  exact blockInv_resetFields (busLine_closed (blockInv_line_ne_broken h))

/-- The state in which RST finds the block n bus events into the request that would take s to t (R232). -/
def cutState (s t : State) (n : Nat) : State :=
  if (t.trace.drop s.trace.length).length ≤ n then { t with responses := s.responses }
  else { s.skipSlots (slotCount ((t.trace.drop s.trace.length).take n)) with
    trace := s.trace ++ (t.trace.drop s.trace.length).take n }

theorem cutAt_eq (s t : State) (n : Nat) :
    s.cutAt t n =
      ((cutState s t n).emit (if csAsserted (cutState s t n).trace then [.csDeassert] else [])).resetFields :=
  congrArg State.resetFields (emit_ite _ _ _)

/-- Nothing but events of the request stands on the trace when RST comes. -/
theorem cutState_trace {s t : State} (h : s.trace <+: t.trace) (n : Nat) : (cutState s t n).trace <+: t.trace := by
  obtain ⟨emitted, he⟩ := h
  have hdrop : t.trace.drop s.trace.length = emitted := by simp [← he]
  unfold cutState
  split
  · exact List.prefix_rfl
  · rw [hdrop, ← he]
    exact (List.prefix_append_right_inj _).2 (List.take_prefix n emitted)

theorem blockInv_cutAt {s t : State} (ht : BlockInv t) (h : s.trace <+: t.trace) (n : Nat) :
    BlockInv (s.cutAt t n) := by
  rw [cutAt_eq]
  exact blockInv_resetFields
    (busLine_closed (busLine_ne_broken_of_le (cutState_trace h n) (blockInv_line_ne_broken ht)))

/-! Requests that open frames. -/

/-- Between a free bus and a closed frame. -/
theorem blockInv_of_idle {s u : State} (h : BlockInv s) (hu : BusUsed s u) (ha : s.strmActive = false)
    (hb : s.busHung = false) (hline : busLine u.trace = .idle) : BlockInv u := by
  obtain ⟨k, es, rfl⟩ := hu
  exact ⟨h.aligner, h.faultRecord, by simpa [BusAgrees, ha, hb] using hline⟩

theorem blockInv_of_waiting {s u : State} (h : BlockInv s) (hu : BusUsed s u) (ha : s.strmActive = false)
    {outs : List Byte} (hline : busLine u.trace = .frame outs) : BlockInv u.hang := by
  obtain ⟨k, es, rfl⟩ := hu
  exact ⟨h.aligner, h.faultRecord, by simpa [BusAgrees, ha] using ⟨outs, hline⟩⟩

theorem blockInv_idle {s : State} (h : BlockInv s) (ha : s.strmActive = false) (hb : s.busHung = false) :
    busLine s.trace = .idle := by simpa [BusAgrees, ha, hb] using h.bus

theorem blockInv_frame {s : State} (h : BlockInv s) (ha : s.strmActive = false) (hb : s.busHung = false)
    {outs : List Byte} (legal : legalOuts outs = true) : BlockInv (s.frame outs).2 := by
  have idle := blockInv_idle h ha hb
  rcases frame_cases s outs with ⟨ins, hl, e⟩ | ⟨pre, o, post, ins, rfl, hl, e⟩ | ⟨pre, o, post, ins, rfl, hl, e⟩ <;>
    rw [e]
  · refine blockInv_of_idle h ⟨_, _, rfl⟩ ha hb ?_
    simpa using busLine_csDeassert (busLine_opened idle hl legal)
  · rw [List.append_cons] at legal
    have legal := legalOuts_append_left legal
    refine blockInv_of_idle h ⟨_, _, rfl⟩ ha hb ?_
    simpa using busLine_failed (busLine_opened idle hl (legalOuts_append_left legal)) legal
  · exact blockInv_of_waiting h ⟨_, _, rfl⟩ ha (busLine_opened idle hl (legalOuts_append_left legal))

theorem blockInv_readRegs (regs : List RegAddr) : ∀ {s : State}, BlockInv s → s.strmActive = false →
    s.busHung = false → BlockInv (s.readRegs regs).2 := by
  induction regs with
  | nil => exact fun h _ _ => h
  | cons a regs ih =>
    intro s h ha hb
    have hframe := blockInv_frame h ha hb (legalOuts_outBytes .readByte (a.setWidth 16) 0)
    obtain ⟨u, ⟨k, es, hu⟩, ⟨ins, e⟩ | e | e⟩ := framesEnd_frame s (outBytes .readByte (a.setWidth 16) 0)
    · rw [e] at hframe
      rw [readRegs_bytes e]
      exact ih hframe (by simpa [hu] using ha) (by simpa [hu] using hb)
    · rw [readRegs_busError e, ← e]
      exact hframe
    · rw [readRegs_hung e, ← e]
      exact hframe

theorem blockInv_openBus {s : State} {run : State → State} (h : BlockInv s)
    (hrun : s.strmActive = false → BlockInv (run s)) : BlockInv (s.openBus run) := by
  rcases ha : s.strmActive
  · rcases hl : s.pwrCycleLock
    · rw [openBus_free ha hl]
      exact hrun ha
    · rw [openBus_locked ha hl]
      exact blockInv_answer h _ _
  · rw [openBus_busy ha]
    exact blockInv_raiseFault h _

theorem blockInv_transfer {s : State} (h : BlockInv s) (hb : s.busHung = false) (w : WireCmd) (addr : Addr)
    (data : Byte) : BlockInv (s.transfer w addr data) := by
  rcases ho : addrOk w addr
  · simpa [State.transfer, ho] using blockInv_raiseFault h _
  simp only [State.transfer, ho, if_true]
  refine blockInv_openBus h fun ha => ?_
  have hframe := blockInv_frame h ha hb (legalOuts_outBytes w addr data)
  rcases e : s.frame (outBytes w addr data) with ⟨ins | _ | _, t⟩ <;> rw [e] at hframe
  · exact blockInv_conclude hframe _
  · exact blockInv_answer hframe _ _
  · exact hframe

theorem blockInv_readAngle {s : State} (h : BlockInv s) (hb : s.busHung = false) : BlockInv (body .readAngle s) := by
  apply blockInv_openBus h
  intro ha
  have hregs := blockInv_readRegs Config.angleRegs h ha hb
  rcases e : s.readRegs Config.angleRegs with ⟨bs | _ | _, t⟩ <;> rw [e] at hregs
  · exact blockInv_answer hregs _ _
  · exact blockInv_answer hregs _ _
  · exact hregs

/-! Stream requests. -/

/-- An open stream: its header and n slots after it are sent, modulo 4 as many as the index says. -/
theorem blockInv_streaming {s u : State} (h : BlockInv s) (hf : u.fault = s.fault) (hc : u.faultCause = s.faultCause)
    (ha : u.strmActive = true) {n : Nat} (hline : busLine u.trace = .frame (burstOuts n))
    (hn : n % 4 = u.strmIdx.toNat) : BlockInv u :=
  ⟨by simp [AlignerIdle, ha], by simpa [FaultRecord, hf, hc] using h.faultRecord,
    by simpa [BusAgrees, ha] using ⟨n, hline, hn⟩⟩

/-- A closed stream with no partial group. -/
theorem blockInv_closed {s u : State} (h : BlockInv s) (hf : u.fault = s.fault) (hc : u.faultCause = s.faultCause)
    (ha : u.strmActive = false) (hi : u.strmIdx = 0) (hb : u.busHung = false) (hline : busLine u.trace = .idle) :
    BlockInv u :=
  ⟨fun _ => hi, by simpa [FaultRecord, hf, hc] using h.faultRecord, by simpa [BusAgrees, ha, hb] using hline⟩

theorem blockInv_openStream {s : State} (h : BlockInv s) (hb : s.busHung = false) : BlockInv s.openStream := by
  refine blockInv_openBus h fun ha => ?_
  have idle := blockInv_idle h ha hb
  have legal := legalOuts_outBytes .readAngleBurst 0 0
  rcases slots_cases (outBytes .readAngleBurst 0 0) (s.emit [.csAssert]) with ⟨ins, hl, e⟩ |
    ⟨pre, o, post, ins, hout, hl, e⟩ | ⟨pre, o, post, ins, hout, hl, e⟩ <;> simp only [e]
  · apply blockInv_answer
    refine blockInv_streaming (n := 0) h rfl rfl rfl ?_ rfl
    have header : outBytes .readAngleBurst 0 0 = burstOuts 0 := rfl
    simpa [← header] using busLine_opened idle hl legal
  · rw [hout, List.append_cons] at legal
    have legal := legalOuts_append_left legal
    refine blockInv_answer (blockInv_of_idle h ⟨pre.length + 1, _, by simp [skipSlots_emit]; rfl⟩ ha hb ?_) _ _
    simpa using busLine_failed (busLine_opened idle hl (legalOuts_append_left legal)) legal
  · rw [hout] at legal
    refine blockInv_of_waiting (outs := pre) h ⟨pre.length + 1, _, by simp [skipSlots_emit]; rfl⟩ ha ?_
    simpa using busLine_opened idle hl (legalOuts_append_left legal)

theorem strmIdx_cases (s : State) : s.strmIdx = 0 ∨ s.strmIdx = 1 ∨ s.strmIdx = 2 ∨ s.strmIdx = 3 := by
  generalize s.strmIdx = idx
  revert idx
  decide

/-- The index counts the bytes of the current group, modulo 4 (R184). -/
theorem takeGroupByte_strmIdx (s : State) (r : Byte) : (s.takeGroupByte r).strmIdx = s.strmIdx + 1 := by
  rcases strmIdx_cases s with h | h | h | h
  · simp [takeGroupByte_first h, h]
  · simp [takeGroupByte_second h, h]
  · simp [takeGroupByte_third h, h]
  · simp [takeGroupByte_fourth h, h]

/-- What completing or buffering a byte of a group leaves alone. -/
theorem takeGroupByte_frame (s : State) (r : Byte) :
    (s.takeGroupByte r).fault = s.fault ∧ (s.takeGroupByte r).faultCause = s.faultCause ∧
      (s.takeGroupByte r).strmActive = s.strmActive ∧ (s.takeGroupByte r).trace = s.trace := by
  unfold State.takeGroupByte
  split <;> exact ⟨rfl, rfl, rfl, rfl⟩

theorem blockInv_streamByte {s : State} (h : BlockInv s) (hb : s.busHung = false) : BlockInv (body .streamByte s) := by
  rcases ha : s.strmActive
  · exact streamByte_inactive ha ▸ blockInv_raiseFault h _
  obtain ⟨n, hline, hn⟩ : ∃ n, busLine s.trace = .frame (burstOuts n) ∧ n % 4 = s.strmIdx.toNat := by
    simpa [BusAgrees, ha] using h.bus
  have legal := legalOuts_burstOuts (n + 1)
  rw [burstOuts_succ] at legal
  rcases hs : s.slotAnswer 0 with r | _ | _
  · rw [streamByte_byte ha hs]
    obtain ⟨hf, hc, ha', htr⟩ := takeGroupByte_frame ((s.skipSlots 1).emit [.xchg Config.dummyByte r]) r
    refine blockInv_streaming (n := n + 1) h hf hc (ha'.trans ha) ?_ ?_
    · rw [htr, burstOuts_succ]
      simp [busLine_append, hline, BusLine.next, sendOut, legal]
    · rw [takeGroupByte_strmIdx]
      simp [BitVec.toNat_add, ← hn]
  · rw [streamByte_busError ha hs]
    apply blockInv_answer
    refine blockInv_closed h rfl rfl rfl rfl hb ?_
    simpa using busLine_failed hline legal
  · rw [streamByte_never ha hs]
    exact blockInv_streaming h rfl rfl ha hline hn

theorem blockInv_streamStop {s : State} (h : BlockInv s) (hb : s.busHung = false) : BlockInv (body .streamStop s) := by
  rcases ha : s.strmActive
  · exact streamStop_inactive ha ▸ blockInv_answer h _ _
  by_cases hi : s.strmIdx = 0
  · obtain ⟨n, hline, -⟩ : ∃ n, busLine s.trace = .frame (burstOuts n) ∧ n % 4 = s.strmIdx.toNat := by
      simpa [BusAgrees, ha] using h.bus
    rw [streamStop_boundary ha hi]
    apply blockInv_answer
    exact blockInv_closed h rfl rfl rfl hi hb (busLine_csDeassert hline)
  · exact streamStop_midGroup ha hi ▸ blockInv_raiseFault h _

/-! Every request, and every step. -/

theorem blockInv_body (i : Instr) {s : State} (h : BlockInv s) (hb : s.busHung = false) : BlockInv (body i s) := by
  cases i with
  | readByte addr => exact blockInv_transfer h hb _ _ _
  | writeByte addr data => exact blockInv_transfer h hb _ _ _
  | burnEeprom => exact blockInv_transfer h hb _ _ _
  | setZero => exact blockInv_transfer h hb _ _ _
  | xfer cmd addr data =>
    rcases body_xfer_cases cmd addr data s with e | ⟨w, _, e⟩ <;> rw [e]
    · exact blockInv_raiseFault h _
    · exact blockInv_transfer h hb w addr data
  | readAngle => exact blockInv_readAngle h hb
  | readAngleBurst => exact blockInv_openStream h hb
  | streamStart => exact blockInv_openStream h hb
  | streamByte => exact blockInv_streamByte h hb
  | streamStop => exact blockInv_streamStop h hb
  | encode cmd addr data => exact blockInv_conclude h _
  | decode cmd ins => exact blockInv_conclude h _
  | crc8 _ => exact blockInv_answer h _ _
  | assemble _ _ _ _ => exact blockInv_answer h _ _
  | convert _ => exact blockInv_answer h _ _
  | statusFlags _ => exact blockInv_answer h _ _
  | calDecode _ => exact blockInv_answer h _ _
  | reservedOp _ => exact blockInv_raiseFault h _

theorem blockInv_accept (i : Instr) {s : State} (h : BlockInv s) (hb : s.busHung = false) :
    BlockInv (s.accept (body i)) := by
  rcases hf : s.fault
  · rw [accept_running hf]
    exact blockInv_body i h hb
  · rw [accept_halted hf]
    exact blockInv_respond h _

theorem accept_body_trace (i : Instr) (s : State) : s.trace <+: (s.accept (body i)).trace := by
  obtain ⟨u, hu, -, he⟩ := exec_ends (exec_eq i s)
  obtain ⟨-, -, -, -, -, -, htrace⟩ := hu.frame
  rw [he.frame]
  exact htrace

theorem blockInv_withInputs {s : State} (h : BlockInv s) (rest : List Input) : BlockInv (withInputs s rest) :=
  ⟨h.aligner, h.faultRecord, h.bus⟩

/-- Settles O14, by what the step takes up. -/
theorem stepKeepsInvariants : Obligations.StepKeepsInvariants := by
  intro s t h hstep
  cases stepTo_of_step hstep with
  | idle => exact h
  | lock => exact ⟨h.aligner, h.faultRecord, h.bus⟩
  | rst => exact blockInv_rst (blockInv_withInputs h _)
  | request hb _ i => exact blockInv_accept i (blockInv_withInputs h _) hb
  | requestRst hb _ i =>
    apply blockInv_cutAt
    · exact blockInv_accept i (blockInv_withInputs h _) hb
    · exact accept_body_trace i _

end Sys2Proof.Proofs
end

section
/-! The bytes of s.strm_buf at or above s.strm_idx are never observed (10_state.md rule R22). Every operation but the group
aligner's own commutes with putting other bytes in the buffer; the aligner reads it only at index 3. -/

namespace Sys2Proof.Proofs

open Sys2Proof.Machine Sys2Proof.Safety Sys2Proof.Laws

/-- The state with other bytes in s.strm_buf. -/
def withBuf (s : State) (b0 b1 b2 : Byte) : State := { s with strmBuf0 := b0, strmBuf1 := b1, strmBuf2 := b2 }

theorem agreeUpToBuffer_iff {s t : State} :
    AgreeUpToBuffer s t ↔ ∃ b0 b1 b2, t = withBuf s b0 b1 b2 ∧ (1 ≤ s.strmIdx.toNat → b0 = s.strmBuf0) ∧
      (2 ≤ s.strmIdx.toNat → b1 = s.strmBuf1) ∧ (3 ≤ s.strmIdx.toNat → b2 = s.strmBuf2) := by
  constructor
  · exact fun h => ⟨t.strmBuf0, t.strmBuf1, t.strmBuf2, h⟩
  · rintro ⟨b0, b1, b2, rfl, h0, h1, h2⟩
    exact ⟨rfl, h0, h1, h2⟩

theorem agreeUpToBuffer_refl (s : State) : AgreeUpToBuffer s s := ⟨rfl, fun _ => rfl, fun _ => rfl, fun _ => rfl⟩

/-! Operations that neither read nor write the buffer. -/

/-- The operation does the same whatever is in the buffer, and leaves it there. -/
def IgnoresBuf (f : State → State) : Prop :=
  ∀ s b0 b1 b2, f (withBuf s b0 b1 b2) = withBuf (f s) b0 b1 b2

theorem agreeUpToBuffer_of_ignoresBuf {f : State → State} (hf : IgnoresBuf f) {s t : State}
    (h : AgreeUpToBuffer s t) (hidx : (f s).strmIdx = s.strmIdx ∨ (f s).strmIdx = 0) :
    AgreeUpToBuffer (f s) (f t) := by
  obtain ⟨b0, b1, b2, rfl, h0, h1, h2⟩ := agreeUpToBuffer_iff.1 h
  have kept : f s = withBuf (f s) s.strmBuf0 s.strmBuf1 s.strmBuf2 := hf s _ _ _
  refine agreeUpToBuffer_iff.2 ⟨b0, b1, b2, hf s b0 b1 b2, ?_⟩
  rcases hidx with hidx | hidx
  · rw [hidx, kept]
    exact ⟨h0, h1, h2⟩
  · simp [hidx]

theorem busXchg_withBuf (s : State) (b0 b1 b2 o : Byte) :
    (withBuf s b0 b1 b2).busXchg o = ((s.busXchg o).1, withBuf (s.busXchg o).2 b0 b1 b2) := by
  rcases h : s.slotAnswer 0 with i | _ | _
  · rw [busXchg_byte h, busXchg_byte (s := withBuf s b0 b1 b2) h]; rfl
  · rw [busXchg_busError h, busXchg_busError (s := withBuf s b0 b1 b2) h]; rfl
  · rw [busXchg_never h, busXchg_never (s := withBuf s b0 b1 b2) h]; rfl

theorem emit_withBuf (s : State) (b0 b1 b2 : Byte) (es : List BusEvent) :
    (withBuf s b0 b1 b2).emit es = withBuf (s.emit es) b0 b1 b2 := rfl

theorem slots_withBuf (outs : List Byte) : ∀ (s : State) (b0 b1 b2 : Byte),
    (withBuf s b0 b1 b2).slots outs = ((s.slots outs).1, withBuf (s.slots outs).2 b0 b1 b2) := by
  induction outs with
  | nil => intro s b0 b1 b2; rfl
  | cons o outs ih =>
    intro s b0 b1 b2
    rw [State.slots, State.slots, busXchg_withBuf]
    rcases s.busXchg o with ⟨i | _ | _, t⟩
    · simp only [ih]
    · rfl
    · rfl

theorem frame_withBuf (s : State) (outs : List Byte) (b0 b1 b2 : Byte) :
    (withBuf s b0 b1 b2).frame outs = ((s.frame outs).1, withBuf (s.frame outs).2 b0 b1 b2) := by
  rw [State.frame, State.frame, emit_withBuf, slots_withBuf]
  rcases (s.emit [.csAssert]).slots outs with ⟨ins | _ | _, t⟩ <;> rfl

theorem readRegs_withBuf (regs : List RegAddr) : ∀ (s : State) (b0 b1 b2 : Byte),
    (withBuf s b0 b1 b2).readRegs regs = ((s.readRegs regs).1, withBuf (s.readRegs regs).2 b0 b1 b2) := by
  induction regs with
  | nil => intro s b0 b1 b2; rfl
  | cons a regs ih =>
    intro s b0 b1 b2
    rw [State.readRegs, State.readRegs, frame_withBuf]
    rcases s.frame (outBytes .readByte (a.setWidth 16) 0) with ⟨ins | _ | _, t⟩
    · simp only [ih]
    · rfl
    · rfl

theorem ignoresBuf_conclude (v : Verdict) : IgnoresBuf (State.conclude · v) := by
  rcases v with c | ⟨st, r⟩ <;> exact fun _ _ _ _ => rfl

theorem ignoresBuf_openBus {run : State → State} (hrun : IgnoresBuf run) : IgnoresBuf (State.openBus · run) := by
  intro s b0 b1 b2
  show (withBuf s b0 b1 b2).openBus run = withBuf (s.openBus run) b0 b1 b2
  rcases ha : s.strmActive
  · rcases hl : s.pwrCycleLock
    · rw [openBus_free ha hl, openBus_free (s := withBuf s b0 b1 b2) ha hl, hrun]
    · rw [openBus_locked ha hl, openBus_locked (s := withBuf s b0 b1 b2) ha hl]; rfl
  · rw [openBus_busy ha, openBus_busy (s := withBuf s b0 b1 b2) ha]; rfl

theorem ignoresBuf_transfer (w : WireCmd) (addr : Addr) (data : Byte) :
    IgnoresBuf (State.transfer · w addr data) := by
  intro s b0 b1 b2
  unfold State.transfer
  split
  · refine ignoresBuf_openBus (fun s b0 b1 b2 => ?_) s b0 b1 b2
    rw [frame_withBuf]
    rcases s.frame (outBytes w addr data) with ⟨ins | _ | _, t⟩
    · exact ignoresBuf_conclude _ t b0 b1 b2
    · rfl
    · rfl
  · rfl

theorem ignoresBuf_readAngle : IgnoresBuf (body .readAngle) := by
  refine ignoresBuf_openBus fun s b0 b1 b2 => ?_
  rw [readRegs_withBuf]
  rcases s.readRegs Config.angleRegs with ⟨bs | _ | _, t⟩ <;> rfl

theorem ignoresBuf_openStream : IgnoresBuf State.openStream := by
  refine ignoresBuf_openBus fun s b0 b1 b2 => ?_
  rw [emit_withBuf, slots_withBuf]
  rcases (s.emit [.csAssert]).slots (outBytes .readAngleBurst 0 0) with ⟨ins | _ | _, t⟩ <;> rfl

theorem ignoresBuf_streamStop : IgnoresBuf (body .streamStop) := by
  intro s b0 b1 b2
  rcases ha : s.strmActive
  · rw [streamStop_inactive ha, streamStop_inactive (s := withBuf s b0 b1 b2) ha]; rfl
  by_cases hi : s.strmIdx = 0
  · rw [streamStop_boundary ha hi, streamStop_boundary (s := withBuf s b0 b1 b2) ha hi]; rfl
  · rw [streamStop_midGroup ha hi, streamStop_midGroup (s := withBuf s b0 b1 b2) ha hi]; rfl

/-- Every request but STREAM_BYTE ignores the buffer. -/
theorem ignoresBuf_body {i : Instr} (hi : i ≠ .streamByte) : IgnoresBuf (body i) := by
  cases i with
  | readByte addr => exact ignoresBuf_transfer _ _ _
  | writeByte addr data => exact ignoresBuf_transfer _ _ _
  | burnEeprom => exact ignoresBuf_transfer _ _ _
  | setZero => exact ignoresBuf_transfer _ _ _
  | xfer cmd addr data =>
    intro s b0 b1 b2
    rcases h : WireCmd.ofCode cmd with _ | w
    · simp only [body, h]; rfl
    · cases w <;> simp only [body, h]
      case readAngleBurst => rfl
      all_goals exact ignoresBuf_transfer _ _ _ s b0 b1 b2
  | readAngle => exact ignoresBuf_readAngle
  | readAngleBurst => exact ignoresBuf_openStream
  | streamStart => exact ignoresBuf_openStream
  | streamByte => exact absurd rfl hi
  | streamStop => exact ignoresBuf_streamStop
  | encode cmd addr data => exact ignoresBuf_conclude _
  | decode cmd ins => exact ignoresBuf_conclude _
  | _ => exact fun _ _ _ _ => rfl

/-! The index. -/

theorem Ends.strmIdx_eq {u t : State} (he : Ends u t) : t.strmIdx = u.strmIdx := by rw [he.frame]

theorem streamStop_strmIdx (s : State) : (body .streamStop s).strmIdx = s.strmIdx := by
  rcases ha : s.strmActive
  · rw [streamStop_inactive ha]; rfl
  by_cases hi : s.strmIdx = 0
  · rw [streamStop_boundary ha hi]; rfl
  · rw [streamStop_midGroup ha hi]; rfl

/-- No request but STREAM_BYTE moves the index, but to 0. -/
theorem body_strmIdx {i : Instr} (hi : i ≠ .streamByte) {s : State} (hf : s.fault = false) :
    (body i s).strmIdx = s.strmIdx ∨ (body i s).strmIdx = 0 := by
  rcases hw : writesAligner i
  · obtain ⟨u, hu, he⟩ := body_ends hw hf
    exact .inl (he.strmIdx_eq.trans hu.strmIdx_eq)
  · obtain ⟨u, ⟨-, hidx⟩, opened⟩ := openStream_ends hf
    rw [← opened.strmIdx_eq] at hidx
    cases i with
    | readAngleBurst => exact hidx
    | streamStart => exact hidx
    | streamByte => exact absurd rfl hi
    | streamStop => exact .inl (streamStop_strmIdx s)
    | _ => cases hw

/-! STREAM_BYTE. -/

theorem agreeUpToBuffer_takeGroupByte {s t : State} (h : AgreeUpToBuffer s t) (r : Byte) :
    AgreeUpToBuffer (s.takeGroupByte r) (t.takeGroupByte r) := by
  obtain ⟨b0, b1, b2, rfl, h0, h1, h2⟩ := agreeUpToBuffer_iff.1 h
  rcases strmIdx_cases s with hi | hi | hi | hi
  · rw [takeGroupByte_first hi, takeGroupByte_first (s := withBuf s b0 b1 b2) hi]
    exact agreeUpToBuffer_iff.2 ⟨r, b1, b2, rfl, by simp⟩
  · rw [takeGroupByte_second hi, takeGroupByte_second (s := withBuf s b0 b1 b2) hi]
    exact agreeUpToBuffer_iff.2 ⟨b0, r, b2, rfl, by simpa [hi] using h0⟩
  · rw [takeGroupByte_third hi, takeGroupByte_third (s := withBuf s b0 b1 b2) hi]
    exact agreeUpToBuffer_iff.2 ⟨b0, b1, r, rfl, by simp_all⟩
  · have full : withBuf s b0 b1 b2 = s := by
      rw [h0 (by simp [hi]), h1 (by simp [hi]), h2 (by simp [hi])]; rfl
    rw [full]
    exact agreeUpToBuffer_refl _

theorem agreeUpToBuffer_streamByte {s t : State} (h : AgreeUpToBuffer s t) :
    AgreeUpToBuffer (body .streamByte s) (body .streamByte t) := by
  have same {f : State → State} (hf : IgnoresBuf f) (hidx : (f s).strmIdx = s.strmIdx ∨ (f s).strmIdx = 0) :=
    agreeUpToBuffer_of_ignoresBuf hf h hidx
  obtain ⟨b0, b1, b2, rfl, -⟩ := agreeUpToBuffer_iff.1 h
  rcases ha : s.strmActive
  · rw [streamByte_inactive ha, streamByte_inactive (s := withBuf s b0 b1 b2) ha]
    exact same (f := (State.raiseFault · .streamNotActive)) (fun _ _ _ _ => rfl) (.inl rfl)
  rcases hs : s.slotAnswer 0 with r | _ | _
  · rw [streamByte_byte ha hs, streamByte_byte (s := withBuf s b0 b1 b2) ha hs]
    exact agreeUpToBuffer_takeGroupByte (same (f := fun s => (s.skipSlots 1).emit [.xchg Config.dummyByte r])
      (fun _ _ _ _ => rfl) (.inl rfl)) r
  · rw [streamByte_busError ha hs, streamByte_busError (s := withBuf s b0 b1 b2) ha hs]
    exact same (f := fun s => ((s.skipSlots 1).emit [.xchgError Config.dummyByte]).abortStream)
      (fun _ _ _ _ => rfl) (.inr rfl)
  · rw [streamByte_never ha hs, streamByte_never (s := withBuf s b0 b1 b2) ha hs]
    exact same (f := fun s => (s.skipSlots 1).hang) (fun _ _ _ _ => rfl) (.inl rfl)

/-! Every request, and every step. -/

theorem agreeUpToBuffer_accept (i : Instr) {s t : State} (h : AgreeUpToBuffer s t) :
    AgreeUpToBuffer (s.accept (body i)) (t.accept (body i)) := by
  have hft : t.fault = s.fault := by rw [h.1]
  have hct : t.faultCause = s.faultCause := by rw [h.1]
  rcases hf : s.fault
  · rw [accept_running hf, accept_running (hft.trans hf)]
    by_cases hi : i = .streamByte
    · exact hi ▸ agreeUpToBuffer_streamByte h
    · exact agreeUpToBuffer_of_ignoresBuf (ignoresBuf_body hi) h (body_strmIdx hi hf)
  · rw [accept_halted hf, accept_halted (hft.trans hf), hct]
    exact agreeUpToBuffer_of_ignoresBuf (f := (State.respond · _)) (fun _ _ _ _ => rfl) h (.inl rfl)

/-- RST leaves nothing of the buffer. -/
theorem rst_withBuf (s : State) (b0 b1 b2 : Byte) : (withBuf s b0 b1 b2).rst = s.rst := by
  rw [rst_eq, rst_eq]; rfl

theorem cutAt_withBuf (s t : State) (b0 b1 b2 c0 c1 c2 : Byte) (n : Nat) :
    (withBuf s b0 b1 b2).cutAt (withBuf t c0 c1 c2) n = s.cutAt t n := by
  dsimp only [State.cutAt, withBuf]
  split_ifs <;> rfl

/-- Settles O18, by what both steps take up. -/
theorem unreadBufferIsUnobservable : Obligations.UnreadBufferIsUnobservable := by
  intro s t h
  have hin : t.inputs = s.inputs := by rw [h.1]
  have hbt : t.busHung = s.busHung := by rw [h.1]
  by_cases hs : Stuck s
  · rw [step_stuck hs.1 hs.2, step_stuck (hbt.trans hs.1) (hin ▸ hs.2)]
  have taken (rest : List Input) : AgreeUpToBuffer (withInputs s rest) (withInputs t rest) :=
    agreeUpToBuffer_of_ignoresBuf (f := (withInputs · rest)) (fun _ _ _ _ => rfl) h (.inl rfl)
  rcases hi : s.inputs with _ | ⟨bytes | level | _ | ⟨bytes, n⟩, rest⟩
  · have hb := busHung_of_not_stuck_nil hs hi
    rw [step_idle hb hi, step_idle (hbt.trans hb) (hin.trans hi)]
    exact h
  · have hb := busHung_of_not_stuck hs hi nofun nofun
    rcases hd : decode bytes with e | i
    · rw [step_undecodable (n := 0) hb (.inl hi) hd, step_undecodable (n := 0) (hbt.trans hb) (.inl (hin.trans hi)) hd]
    · rw [step_request hb hi hd, step_request (hbt.trans hb) (hin.trans hi) hd, exec_eq, exec_eq]
      exact agreeUpToBuffer_accept i (taken rest)
  · rw [step_lock hi, step_lock (hin.trans hi)]
    exact agreeUpToBuffer_of_ignoresBuf (f := fun s => { s with inputs := rest, pwrCycleLock := level })
      (fun _ _ _ _ => rfl) h (.inl rfl)
  · rw [step_rst hi, step_rst (hin.trans hi)]
    obtain ⟨b0, b1, b2, e, -⟩ := agreeUpToBuffer_iff.1 (taken rest)
    rw [e, rst_withBuf]
    exact agreeUpToBuffer_refl _
  · have hb := busHung_of_not_stuck hs hi nofun nofun
    rcases hd : decode bytes with e | i
    · rw [step_undecodable hb (.inr hi) hd, step_undecodable (hbt.trans hb) (.inr (hin.trans hi)) hd]
    · rw [step_requestRst hb hi hd, step_requestRst (hbt.trans hb) (hin.trans hi) hd]
      obtain ⟨b0, b1, b2, e, -⟩ := agreeUpToBuffer_iff.1 (taken rest)
      obtain ⟨c0, c1, c2, e', -⟩ := agreeUpToBuffer_iff.1 (agreeUpToBuffer_accept i (taken rest))
      rw [e', e, cutAt_withBuf]
      exact agreeUpToBuffer_refl _

end Sys2Proof.Proofs
end

section
/-! A slot that is never answered, at each place of each request that uses the bus (10_state.md rule R28). -/

namespace Sys2Proof.Proofs

open Sys2Proof.Machine Sys2Proof.Safety Sys2Proof.Laws

/-! The out-bytes of a frame in arithmetic (R72, R73). -/

theorem header_eq (opc : Cmd) (addr : RegAddr) :
    header opc addr =
      [BitVec.ofNat 8 (opc.toNat * 16 + addr.toNat / 256), BitVec.ofNat 8 (addr.toNat % 256)] := by
  have hopc := opc.isLt
  have haddr := addr.isLt
  have hword : (opc ++ addr).toNat = opc.toNat * 2 ^ 12 + addr.toNat := by
    rw [BitVec.toNat_append, ← Nat.shiftLeft_add_eq_or_of_lt haddr, Nat.shiftLeft_eq]
  simp only [header, List.cons.injEq, and_true]
  constructor <;> apply BitVec.eq_of_toNat_eq <;>
    simp only [BitVec.extractLsb'_toNat, BitVec.toNat_ofNat, hword, Nat.shiftRight_eq_div_pow] <;> omega

theorem toNat_setWidth_twelve {addr : Addr} (h : addr.toNat < 4096) : (addr.setWidth 12).toNat = addr.toNat := by
  simpa using Nat.mod_eq_of_lt h

theorem outBytes_readByte {addr : Addr} (h : addr.toNat < 4096) (data : Byte) :
    outBytes .readByte addr data =
      [BitVec.ofNat 8 (0x30 + addr.toNat / 256), BitVec.ofNat 8 (addr.toNat % 256), 0x00] := by
  rw [outBytes, header_eq, toNat_setWidth_twelve h]
  rfl

theorem outBytes_writeByte {addr : Addr} (h : addr.toNat < 4096) (data : Byte) :
    outBytes .writeByte addr data =
      [BitVec.ofNat 8 (0x60 + addr.toNat / 256), BitVec.ofNat 8 (addr.toNat % 256), data] := by
  rw [outBytes, header_eq, toNat_setWidth_twelve h]
  rfl

/-- A request of one three-slot frame is the transfer of that frame, with an address in range (R102, R111 to R120). -/
theorem sendsFrame_transfer {i : Instr} {out : List Byte} (h : SendsFrame i out) :
    ∃ w addr data, body i = (State.transfer · w addr data) ∧ addrOk w addr = true ∧ outBytes w addr data = out ∧
      out.length = 3 := by
  have legal {addr : Addr} (hr : addr.toNat < 4096) : addrLegal addr = true := by
    simpa [addrLegal, BitVec.lt_def, Config.addrLimit] using hr
  cases h with
  | xferReadByte addr data hr => exact ⟨.readByte, addr, data, rfl, legal hr, outBytes_readByte hr data, rfl⟩
  | xferWriteByte addr data hr => exact ⟨.writeByte, addr, data, rfl, legal hr, outBytes_writeByte hr data, rfl⟩
  | xferBurnEeprom addr data => exact ⟨.burnEeprom, addr, data, rfl, rfl, rfl, rfl⟩
  | xferSetZero addr data => exact ⟨.setZero, addr, data, rfl, rfl, rfl, rfl⟩
  | readByte addr hr => exact ⟨.readByte, addr, 0, rfl, legal hr, outBytes_readByte hr 0, rfl⟩
  | writeByte addr data hr => exact ⟨.writeByte, addr, data, rfl, legal hr, outBytes_writeByte hr data, rfl⟩
  | burnEeprom => exact ⟨.burnEeprom, 0, 0, rfl, rfl, rfl, rfl⟩
  | setZero => exact ⟨.setZero, 0, 0, rfl, rfl, rfl, rfl⟩

/-! Waiting after the slots answered with `ins`. -/

/-- The next slots are answered with `ins`, and the one after them never. -/
def WaitsAfter (s : State) (ins : List Byte) : Prop :=
  (∀ k (hk : k < ins.length), s.slotAnswer k = .byte ins[k]) ∧ s.slotAnswer ins.length = .never

theorem answered_getElem {s : State} {ins : List Byte} (h : Answered s ins) (k : Nat) (hk : k < ins.length) :
    s.slotAnswer k = .byte ins[k] := by
  have := congrArg (·[k]?) h
  simpa [hk] using this

/-- The environment of s after three more slots. -/
theorem waitsAfter_three {s : State} {i0 i1 i2 : Byte} {ins : List Byte} (h : WaitsAfter s (i0 :: i1 :: i2 :: ins))
    (es : List BusEvent) : WaitsAfter ((s.skipSlots 3).emit es) ins := by
  obtain ⟨hbytes, hnever⟩ := h
  refine ⟨fun k hk => ?_, ?_⟩
  · rw [slotAnswer_emit, slotAnswer_skipSlots, Nat.add_comm]
    exact hbytes (k + 3) (by simpa using hk)
  · rw [slotAnswer_emit, slotAnswer_skipSlots, Nat.add_comm]
    exact hnever

theorem slots_waits {s : State} {outs ins : List Byte} (h : WaitsAfter s ins) (hlt : ins.length < outs.length) :
    s.slots outs = (.hung, (s.skipSlots (ins.length + 1)).emit (xchgEvents outs ins)) := by
  obtain ⟨pre, o, post, rfl, hl⟩ : ∃ pre o post, outs = pre ++ o :: post ∧ pre.length = ins.length :=
    ⟨outs.take ins.length, outs[ins.length], outs.drop (ins.length + 1), by simp, by simp [hlt.le]⟩
  have events : xchgEvents (pre ++ o :: post) ins = xchgEvents pre ins := by
    simpa [xchgEvents] using List.zipWith_append (f := BusEvent.xchg) (l₁' := o :: post) (l₂' := []) hl
  rw [slots_hangAt hl h.1 h.2, events]

theorem frame_waits {s : State} {outs ins : List Byte} (h : WaitsAfter s ins) (hlt : ins.length < outs.length) :
    s.frame outs =
      (.hung, ((s.skipSlots (ins.length + 1)).emit (.csAssert :: xchgEvents outs ins)).hang) := by
  rw [State.frame, slots_waits (s := s.emit [.csAssert]) h hlt]
  simp [skipSlots_emit]

/-! READ_ANGLE: whole frames, then one that waits (R164, R166). -/

/-- The events of three-slot frames with out-bytes `outs j`, all but the last one whole, that receive `ins`. -/
def framesEvents (outs : Nat → List Byte) (ins : List Byte) : List BusEvent :=
  ((List.range (ins.length / 3)).flatMap fun j => frameEvents (outs j) ((ins.drop (3 * j)).take 3)) ++
    .csAssert :: List.zipWith BusEvent.xchg (outs (ins.length / 3)) (ins.drop (3 * (ins.length / 3)))

theorem framesEvents_of_lt {ins : List Byte} (h : ins.length < 3) (outs : Nat → List Byte) :
    framesEvents outs ins = .csAssert :: xchgEvents (outs 0) ins := by
  simp [framesEvents, xchgEvents, Nat.div_eq_of_lt h]

theorem framesEvents_three (outs : Nat → List Byte) (i0 i1 i2 : Byte) (ins : List Byte) :
    framesEvents outs (i0 :: i1 :: i2 :: ins) =
      frameEvents (outs 0) [i0, i1, i2] ++ framesEvents (fun j => outs (j + 1)) ins := by
  have hlen : (i0 :: i1 :: i2 :: ins).length / 3 = ins.length / 3 + 1 := by simp; omega
  rw [framesEvents, hlen, List.range_succ_eq_map]
  simp [framesEvents, List.flatMap_map, Nat.mul_add]

theorem readRegs_waits (regs : List RegAddr) : ∀ {s : State} {outs : Nat → List Byte} {ins : List Byte},
    (∀ j (hj : j < regs.length), outs j = outBytes .readByte (regs[j].setWidth 16) 0) → WaitsAfter s ins →
    ins.length < 3 * regs.length →
    s.readRegs regs = (.hung, ((s.skipSlots (ins.length + 1)).emit (framesEvents outs ins)).hang) := by
  induction regs with
  | nil => intro s outs ins _ _ hlt; simp at hlt
  | cons a regs ih =>
    intro s outs ins houts h hlt
    have hout : outs 0 = outBytes .readByte (a.setWidth 16) 0 := houts 0 (by simp)
    rcases Nat.lt_or_ge ins.length 3 with hshort | hlong
    · rw [readRegs_hung (frame_waits h (by simpa [outBytes, header] using hshort)), framesEvents_of_lt hshort, hout]
    · obtain ⟨i0, i1, i2, more, rfl⟩ : ∃ i0 i1 i2 more, ins = i0 :: i1 :: i2 :: more := by
        match ins, hlong with
        | i0 :: i1 :: i2 :: more, _ => exact ⟨i0, i1, i2, more, rfl⟩
      obtain ⟨o0, o1, o2, hthree⟩ : ∃ o0 o1 o2, outBytes .readByte (a.setWidth 16) 0 = [o0, o1, o2] := ⟨_, _, _, rfl⟩
      have answer (k : Nat) (hk : k < 3) := h.1 k (by simp; omega)
      have whole := frame_three (answer 0 (by omega)) (answer 1 (by omega)) (answer 2 (by omega)) o0 o1 o2
      rw [← hthree] at whole
      have count : 3 + (more.length + 1) = (i0 :: i1 :: i2 :: more).length + 1 := Nat.add_comm _ _
      rw [readRegs_bytes whole, ih (fun j hj => houts (j + 1) (by simpa using hj)) (waitsAfter_three h _)
        (by simp at hlt; omega), framesEvents_three, hout, hthree, skipSlots_emit, skipSlots_skipSlots, count]
      simp [frameEvents]

/-! The requests. -/

theorem exec_sendsFrame_waits {i : Instr} {out ins : List Byte} {s : State} (hi : SendsFrame i out)
    (hf : s.fault = false) (ha : s.strmActive = false) (hl : s.pwrCycleLock = false) (h : WaitsAfter s ins)
    (hlt : ins.length < 3) :
    exec i s = .next ((s.skipSlots (ins.length + 1)).emit (.csAssert :: xchgEvents out ins)).hang := by
  obtain ⟨w, addr, data, hbody, hok, rfl, hlen⟩ := sendsFrame_transfer hi
  rw [exec_running hf, hbody]
  simp only [State.transfer, hok, if_true]
  rw [openBus_free ha hl, frame_waits h (by omega)]

theorem exec_readAngle_waits {ins : List Byte} {s : State} (hf : s.fault = false) (ha : s.strmActive = false)
    (hl : s.pwrCycleLock = false) (h : WaitsAfter s ins) (hlt : ins.length < 12) :
    exec .readAngle s = .next ((s.skipSlots (ins.length + 1)).emit (framesEvents angleOuts ins)).hang := by
  have houts : ∀ j (hj : j < Config.angleRegs.length),
      angleOuts j = outBytes .readByte (Config.angleRegs[j].setWidth 16) 0 := by decide
  rw [exec_running hf]
  simp only [body]
  rw [openBus_free ha hl, readRegs_waits Config.angleRegs houts h hlt]

theorem openStream_waits {ins : List Byte} {s : State} (ha : s.strmActive = false) (hl : s.pwrCycleLock = false)
    (h : WaitsAfter s ins) (hlt : ins.length < 2) :
    s.openStream = ((s.skipSlots (ins.length + 1)).emit (.csAssert :: xchgEvents [0xA0, 0x03] ins)).hang := by
  have hout : outBytes .readAngleBurst 0 0 = [0xA0, 0x03] := rfl
  rw [State.openStream, openBus_free ha hl, hout, slots_waits (s := s.emit [.csAssert]) (outs := [0xA0, 0x03]) h hlt]
  simp [skipSlots_emit]

/-- Settles O54, one kind of request after another. -/
theorem unansweredSlotHangsRequest : Obligations.UnansweredSlotHangsRequest := by
  intro ins s hf hans hnever
  have h : WaitsAfter s ins := ⟨answered_getElem hans, hnever⟩
  refine ⟨fun ha hl => ⟨fun hlt i out hi => ?_, fun hlt => ?_, fun hlt i hi => ?_⟩, fun ha hins => ?_⟩
  · exact exec_sendsFrame_waits hi hf ha hl h hlt
  · exact exec_readAngle_waits hf ha hl h hlt
  · rcases hi with rfl | rfl <;> exact (exec_running hf _).trans (congrArg _ (openStream_waits ha hl h hlt))
  · subst hins
    rw [exec_running hf, streamByte_never ha hnever, List.append_nil]
    rfl

end Sys2Proof.Proofs
end

section
/-! The bus trace and the responses only grow (20_memory.md rule R59; 70_reset_and_hazards.md rule R232). -/

namespace Sys2Proof.Proofs

open Sys2Proof.Machine Sys2Proof.Safety Sys2Proof.Laws

/-- From s to t events and responses were put after those of s, and none of those of s was touched. -/
def Appends (s t : State) : Prop := s.trace <+: t.trace ∧ s.responses <+: t.responses

theorem Ends.appends {u t : State} (h : Ends u t) : Appends u t := by
  cases h with
  | answered st r => exact ⟨List.prefix_rfl, List.prefix_append ..⟩
  | raised _ c => exact ⟨List.prefix_rfl, List.prefix_append ..⟩
  | halted _ => exact ⟨List.prefix_rfl, List.prefix_append ..⟩
  | waits => exact ⟨List.prefix_rfl, List.prefix_rfl⟩

/-- A request appends its events on the way to its end, and its response there. -/
theorem appends_accept_body (i : Instr) (s : State) : Appends s (s.accept (body i)) := by
  obtain ⟨u, hu, -, he⟩ := exec_ends (exec_eq i s)
  obtain ⟨-, -, -, -, -, hresponses, htrace⟩ := hu.frame
  obtain ⟨endTrace, endResponses⟩ := he.appends
  exact ⟨htrace.trans endTrace, hresponses ▸ endResponses⟩

theorem appends_rst (s : State) : Appends s s.rst := by
  rw [rst_eq]
  exact ⟨List.prefix_append .., List.prefix_rfl⟩

theorem cutState_responses (s t : State) (n : Nat) : (cutState s t n).responses = s.responses := by
  unfold cutState
  split <;> rfl

/-- What stood on the trace before the request still stands there when RST comes. -/
theorem trace_prefix_cutState {s t : State} (h : s.trace <+: t.trace) (n : Nat) :
    s.trace <+: (cutState s t n).trace := by
  unfold cutState
  split
  · exact h
  · exact List.prefix_append ..

/-- RST inside a request keeps some of the request's events, and none of its responses (R232). -/
theorem appends_cutAt {s t : State} (h : s.trace <+: t.trace) (n : Nat) : Appends s (s.cutAt t n) := by
  rw [cutAt_eq]
  refine ⟨(trace_prefix_cutState h n).trans (List.prefix_append ..), ?_⟩
  simp [cutState_responses]

/-- Settles O15, by what the step takes up. -/
theorem stepOnlyAppends : Obligations.StepOnlyAppends := by
  intro s t hstep
  cases stepTo_of_step hstep with
  | idle => exact ⟨List.prefix_rfl, List.prefix_rfl⟩
  | lock => exact ⟨List.prefix_rfl, List.prefix_rfl⟩
  | @rst rest => exact appends_rst (withInputs s rest)
  | @request _ rest _ _ i => exact appends_accept_body i (withInputs s rest)
  | @requestRst _ n rest _ _ i => exact appends_cutAt (accept_body_trace i (withInputs s rest)) n

end Sys2Proof.Proofs
end

section
/-! Decoding and encoding are inverse to each other (30_encoding.md rules R71 to R82). Every operand wider than a byte is
written as the append of its pieces, so that both directions follow from one equation of `encode` per layout. -/

namespace Sys2Proof.Proofs

open Sys2Proof.Machine Sys2Proof.Safety Sys2Proof.Laws

/-! Words as the append of their pieces. -/

theorem exists_append {v w : Nat} (x : BitVec (v + w)) : ∃ (a : BitVec v) (b : BitVec w), x = a ++ b :=
  ⟨x.extractLsb' w v, x.extractLsb' 0 w, ((BitVec.extractLsb'_append_extractLsb'_eq_extractLsb' (by simp)).trans
    BitVec.extractLsb'_eq_self).symm⟩

theorem append_inj {v w : Nat} {a c : BitVec v} {b d : BitVec w} : a ++ b = c ++ d ↔ a = c ∧ b = d := by
  refine ⟨fun h => ?_, by rintro ⟨rfl, rfl⟩; rfl⟩
  have high := congrArg (BitVec.extractLsb' w v) h
  have low := congrArg (BitVec.extractLsb' 0 w) h
  rw [BitVec.extractLsb'_append_eq_left, BitVec.extractLsb'_append_eq_left] at high
  rw [BitVec.extractLsb'_append_eq_right, BitVec.extractLsb'_append_eq_right] at low
  exact ⟨high, low⟩

@[simp] theorem hiNibble_append (h l : BitVec 4) : hiNibble (h ++ l) = h := BitVec.extractLsb'_append_eq_left

@[simp] theorem loNibble_append (h l : BitVec 4) : loNibble (h ++ l) = l := BitVec.extractLsb'_append_eq_right

/-- A value fits its operand exactly when the bits above are 0 (R82). -/
theorem map_narrow_eq_ok {k w : Nat} {x : BitVec (k + w)} {f : BitVec w → Instr} {i : Instr} :
    (narrow w x).map f = .ok i ↔ ∃ y, x = 0#k ++ y ∧ f y = i := by
  unfold narrow
  constructor
  · intro h
    split_ifs at h with hx
    · refine ⟨x.setWidth w, BitVec.eq_of_toNat_eq ?_, Except.ok.inj h⟩
      simp [Nat.mod_eq_of_lt hx]
    · cases h
  · rintro ⟨y, rfl, rfl⟩
    simp [BitVec.setWidth_append_eq_right, y.isLt, Except.map]

theorem addrLegal_iff_lt {addr : Addr} : addrLegal addr = true ↔ addr.toNat < 4096 := by
  simp [addrLegal, BitVec.lt_def, Config.addrLimit]

/-- An address is legal exactly when the 4 bits above a register address are 0 (R50). -/
theorem addrLegal_iff {addr : Addr} : addrLegal addr = true ↔ ∃ a : RegAddr, addr = 0#4 ++ a := by
  rw [addrLegal_iff_lt]
  constructor
  · intro h
    refine ⟨addr.setWidth 12, BitVec.eq_of_toNat_eq ?_⟩
    rw [BitVec.toNat_append]
    simpa using (Nat.mod_eq_of_lt h).symm
  · rintro ⟨a, rfl⟩
    rw [BitVec.toNat_append]
    simpa using a.isLt

/-! Three pieces in a row: the bytes of a CRC payload, or of the 21 bits of a raw angle. -/

theorem extractLsb'_three_first {n : Nat} (a : BitVec n) (b c : Byte) : ((a ++ b) ++ c).extractLsb' 16 n = a := by
  rw [BitVec.extractLsb'_append_eq_of_le (by decide)]
  exact BitVec.extractLsb'_append_eq_left

theorem extractLsb'_three_second {n : Nat} (a : BitVec n) (b c : Byte) : ((a ++ b) ++ c).extractLsb' 8 8 = b := by
  rw [BitVec.extractLsb'_append_eq_of_le (by decide)]
  exact BitVec.extractLsb'_append_eq_right

theorem zero_append_three (a : BitVec 5) (b c : Byte) : ((0#3 ++ a) ++ b) ++ c = 0#3 ++ ((a ++ b) ++ c) :=
  (congrArg (· ++ c) BitVec.append_assoc).trans BitVec.append_assoc

/-! The bytes of the ops with operands wider than a byte, by the pieces of the operand (R80). -/

theorem encode_encode (cmd : Cmd) (ah al data : Byte) :
    encode (.encode cmd (ah ++ al) data) = [opByte 0x0, nibbles 0 cmd, ah, al, data] := by
  rw [encode, BitVec.extractLsb'_append_eq_left, BitVec.extractLsb'_append_eq_right]

theorem encode_xfer (cmd : Cmd) (ah al data : Byte) :
    encode (.xfer cmd (ah ++ al) data) = [opByte 0x7, nibbles 0 cmd, ah, al, data] := by
  rw [encode, BitVec.extractLsb'_append_eq_left, BitVec.extractLsb'_append_eq_right]

theorem encode_crc8 (p2 p1 p0 : Byte) : encode (.crc8 ((p2 ++ p1) ++ p0)) = [opByte 0x2, p2, p1, p0] := by
  rw [encode, extractLsb'_three_first, extractLsb'_three_second, BitVec.extractLsb'_append_eq_right]

theorem encode_convert (r2 : BitVec 5) (r1 r0 : Byte) :
    encode (.convert ((r2 ++ r1) ++ r0)) = [opByte 0x4, 0#3 ++ r2, r1, r0] := by
  rw [encode, extractLsb'_three_first, extractLsb'_three_second, BitVec.extractLsb'_append_eq_right]

/-! The ops (R80, R81). -/

/-- The twelve ops of R80, and the reserved ones of R81. -/
theorem op_cases (op : BitVec 4) :
    op = 0x0 ∨ op = 0x1 ∨ op = 0x2 ∨ op = 0x3 ∨ op = 0x4 ∨ op = 0x5 ∨ op = 0x6 ∨ op = 0x7 ∨ op = 0x8 ∨
      op = 0x9 ∨ op = 0xA ∨ op = 0xB ∨ ∃ low : BitVec 2, op = 0b11#2 ++ low := by
  revert op
  decide

theorem decodeOp_reserved (low : BitVec 2) (ops : List Byte) :
    decodeOp (0b11#2 ++ low) ops = if ops = [] then .ok (.reservedOp low) else .error .trailing := by
  obtain rfl | rfl | rfl | rfl : low = 0 ∨ low = 1 ∨ low = 2 ∨ low = 3 := by revert low; decide
  all_goals cases ops <;> rfl

theorem decode_opByte (op : BitVec 4) (ops : List Byte) : decode (opByte op :: ops) = decodeOp op ops := by
  simp [decode, opByte, nibbles]

/-- An op select with operands that spell a request is the encoding of that request (R80 to R82): for each op one number
of operand bytes is accepted, and DECODE takes any number from one up. -/
theorem encode_of_decodeOp {op : BitVec 4} {ops : List Byte} {i : Instr} (h : decodeOp op ops = .ok i) :
    i.wellFormed = true ∧ encode i = opByte op :: ops := by
  rcases op_cases op with rfl | rfl | rfl | rfl | rfl | rfl | rfl | rfl | rfl | rfl | rfl | rfl | ⟨low, rfl⟩
  · rcases ops with _ | ⟨c, _ | ⟨ah, _ | ⟨al, _ | ⟨d, _ | _⟩⟩⟩⟩
    case cons.cons.cons.cons.nil =>
      obtain ⟨cmd, rfl, rfl⟩ := map_narrow_eq_ok.1 h
      exact ⟨rfl, encode_encode cmd ah al d⟩
    all_goals cases h
  · rcases ops with _ | ⟨c, ins⟩
    · cases h
    · obtain ⟨cmd, rfl, rfl⟩ := map_narrow_eq_ok.1 h
      exact ⟨rfl, rfl⟩
  · rcases ops with _ | ⟨p2, _ | ⟨p1, _ | ⟨p0, _ | _⟩⟩⟩
    case cons.cons.cons.nil =>
      cases h
      exact ⟨rfl, encode_crc8 p2 p1 p0⟩
    all_goals cases h
  · rcases ops with _ | ⟨b0, _ | ⟨b1, _ | ⟨b2, _ | ⟨b3, _ | _⟩⟩⟩⟩
    case cons.cons.cons.cons.nil =>
      cases h
      exact ⟨rfl, rfl⟩
    all_goals cases h
  · rcases ops with _ | ⟨r2, _ | ⟨r1, _ | ⟨r0, _ | _⟩⟩⟩
    case cons.cons.cons.nil =>
      obtain ⟨raw, hraw, rfl⟩ := map_narrow_eq_ok.1 h
      obtain ⟨high, c, rfl⟩ := exists_append (v := 13) (w := 8) raw
      obtain ⟨a, b, rfl⟩ := exists_append (v := 5) (w := 8) high
      rw [← zero_append_three, append_inj, append_inj] at hraw
      obtain ⟨⟨rfl, rfl⟩, rfl⟩ := hraw
      exact ⟨rfl, encode_convert a r1 r0⟩
    all_goals cases h
  · rcases ops with _ | ⟨st, _ | _⟩
    case cons.nil =>
      obtain ⟨status, rfl, rfl⟩ := map_narrow_eq_ok.1 h
      exact ⟨rfl, rfl⟩
    all_goals cases h
  · rcases ops with _ | ⟨v, _ | _⟩
    case cons.nil =>
      cases h
      exact ⟨rfl, rfl⟩
    all_goals cases h
  · rcases ops with _ | ⟨c, _ | ⟨ah, _ | ⟨al, _ | ⟨d, _ | _⟩⟩⟩⟩
    case cons.cons.cons.cons.nil =>
      obtain ⟨cmd, rfl, rfl⟩ := map_narrow_eq_ok.1 h
      exact ⟨rfl, encode_xfer cmd ah al d⟩
    all_goals cases h
  iterate 4
    · rcases ops with _ | _ <;> cases h
      exact ⟨rfl, rfl⟩
  · rw [decodeOp_reserved] at h
    split_ifs at h with hops
    cases h
    exact ⟨rfl, hops ▸ rfl⟩

/-! Wire frames (R72, R73, R75). -/

theorem header_append (opc lo : BitVec 4) (b1 : Byte) : header opc (lo ++ b1) = [opc ++ lo, b1] := by
  have word : opc ++ (lo ++ b1) = (opc ++ lo) ++ b1 := BitVec.append_assoc'
  rw [header, word, BitVec.extractLsb'_append_eq_left, BitVec.extractLsb'_append_eq_right]

theorem frameAddr_append (opc lo : BitVec 4) (b1 : Byte) : frameAddr (opc ++ lo) b1 = 0#4 ++ (lo ++ b1) := by
  rw [frameAddr, loNibble_append]
  exact BitVec.append_assoc


theorem decode_frame {opc : BitVec 4} (h : opc ≠ 0#4) (lo : BitVec 4) (rest : List Byte) :
    decode ((opc ++ lo) :: rest) = decodeFrame (opc ++ lo) rest := by simp [decode, h]

theorem encode_readByte (lo : BitVec 4) (b1 : Byte) :
    encode (.readByte (0#4 ++ (lo ++ b1))) = [0x3#4 ++ lo, b1, Config.dummyByte] := by
  rw [encode, BitVec.setWidth_append_eq_right, header_append]; rfl

theorem encode_writeByte (lo : BitVec 4) (b1 data : Byte) :
    encode (.writeByte (0#4 ++ (lo ++ b1)) data) = [0x6#4 ++ lo, b1, data] := by
  rw [encode, BitVec.setWidth_append_eq_right, header_append]; rfl

theorem decode_readByte (lo : BitVec 4) (b1 b2 : Byte) :
    decode [0x3#4 ++ lo, b1, b2] = .ok (.readByte (0#4 ++ (lo ++ b1))) := by
  simp [decode_frame, decodeFrame, WireCmd.ofCode, frameAddr_append]

theorem decode_writeByte (lo : BitVec 4) (b1 b2 : Byte) :
    decode [0x6#4 ++ lo, b1, b2] = .ok (.writeByte (0#4 ++ (lo ++ b1)) b2) := by
  simp [decode_frame, decodeFrame, WireCmd.ofCode, frameAddr_append]

/-- A frame that decodes to a command of fixed address has that address in its header (R71). -/
theorem header_of_fixedAddress {opc lo : BitVec 4} {b1 : Byte} (addr : RegAddr) {i j : Instr}
    (h : (if frameAddr (opc ++ lo) b1 = addr.setWidth 16 then .ok j else .error .fixedAddress :
      Except DecodeError Instr) = .ok i) :
    i = j ∧ header opc addr = [opc ++ lo, b1] := by
  split_ifs at h with ha
  have wide : addr.setWidth 16 = 0#4 ++ addr := BitVec.setWidth_eq_append (by decide)
  rw [frameAddr_append, wide, append_inj] at ha
  rw [← ha.2, header_append]
  exact ⟨(Except.ok.inj h).symm, rfl⟩

/-- The bytes of a wire frame are the encoding of the command they spell, but for slot 2 where it is not looked at. -/
theorem encode_of_decodeFrame {opc lo : BitVec 4} {rest : List Byte} {i : Instr}
    (h : decodeFrame (opc ++ lo) rest = .ok i) :
    i.wellFormed = true ∧ (encode i = (opc ++ lo) :: rest ∨
      (((∃ addr, i = .readByte addr) ∨ i = .burnEeprom ∨ i = .setZero) ∧
        encode i = ((opc ++ lo) :: rest).set 2 0x00)) := by
  unfold decodeFrame at h
  rw [hiNibble_append] at h
  rcases hw : WireCmd.ofCode opc with _ | w <;> rw [hw] at h
  · cases h
  obtain rfl := ofCode_eq_some.1 hw
  cases w with
  | readByte =>
    rcases rest with _ | ⟨b1, _ | ⟨b2, _ | _⟩⟩
    case cons.cons.nil =>
      obtain rfl := Except.ok.inj h
      rw [frameAddr_append]
      exact ⟨addrLegal_iff.2 ⟨_, rfl⟩, .inr ⟨.inl ⟨_, rfl⟩, encode_readByte lo b1⟩⟩
    all_goals cases h
  | writeByte =>
    rcases rest with _ | ⟨b1, _ | ⟨data, _ | _⟩⟩
    case cons.cons.nil =>
      obtain rfl := Except.ok.inj h
      rw [frameAddr_append]
      exact ⟨addrLegal_iff.2 ⟨_, rfl⟩, .inl (encode_writeByte lo b1 data)⟩
    all_goals cases h
  | burnEeprom =>
    rcases rest with _ | ⟨b1, _ | ⟨b2, _ | _⟩⟩
    case cons.cons.nil =>
      obtain ⟨rfl, hb⟩ := header_of_fixedAddress 0 h
      exact ⟨rfl, .inr ⟨.inr (.inl rfl), congrArg (· ++ [Config.dummyByte]) hb⟩⟩
    all_goals cases h
  | setZero =>
    rcases rest with _ | ⟨b1, _ | ⟨b2, _ | _⟩⟩
    case cons.cons.nil =>
      obtain ⟨rfl, hb⟩ := header_of_fixedAddress 0 h
      exact ⟨rfl, .inr ⟨.inr (.inr rfl), congrArg (· ++ [Config.dummyByte]) hb⟩⟩
    all_goals cases h
  | readAngleBurst =>
    rcases rest with _ | ⟨b1, _ | _⟩
    case cons.nil =>
      obtain ⟨rfl, hb⟩ := header_of_fixedAddress Config.burstAddr h
      exact ⟨rfl, .inl hb⟩
    all_goals cases h

/-- Settles O51: the high nibble of the first byte tells an op from a wire frame. -/
theorem encodeOfDecode : Obligations.EncodeOfDecode := by
  intro bytes i h
  rcases bytes with _ | ⟨b, rest⟩
  · cases h
  obtain ⟨opc, lo, rfl⟩ := exists_append (v := 4) (w := 4) b
  by_cases hop : opc = 0#4
  · subst hop
    obtain ⟨hwf, henc⟩ := encode_of_decodeOp ((decode_opByte lo rest).symm.trans h)
    exact ⟨hwf, .inl henc⟩
  · exact encode_of_decodeFrame ((decode_frame hop lo rest).symm.trans h)

/-- Settles O50: the bytes of each instruction, by the pieces of its operands, decode to it. -/
theorem decodeOfEncode : Obligations.DecodeOfEncode := by
  intro i hi
  cases i with
  | readByte addr =>
    obtain ⟨a, rfl⟩ := addrLegal_iff.1 hi
    obtain ⟨lo, b1, rfl⟩ := exists_append (v := 4) (w := 8) a
    rw [encode_readByte, decode_readByte]
  | writeByte addr data =>
    obtain ⟨a, rfl⟩ := addrLegal_iff.1 hi
    obtain ⟨lo, b1, rfl⟩ := exists_append (v := 4) (w := 8) a
    rw [encode_writeByte, decode_writeByte]
  | burnEeprom => rfl
  | setZero => rfl
  | readAngleBurst => rfl
  | encode cmd addr data =>
    obtain ⟨ah, al, rfl⟩ := exists_append (v := 8) (w := 8) addr
    rw [encode_encode, decode_opByte]
    exact map_narrow_eq_ok.2 ⟨cmd, rfl, rfl⟩
  | decode cmd ins => exact (decode_opByte 0x1 _).trans (map_narrow_eq_ok.2 ⟨cmd, rfl, rfl⟩)
  | crc8 payload =>
    obtain ⟨high, p0, rfl⟩ := exists_append (v := 16) (w := 8) payload
    obtain ⟨p2, p1, rfl⟩ := exists_append (v := 8) (w := 8) high
    rw [encode_crc8, decode_opByte]
    rfl
  | assemble b0 b1 b2 b3 => exact decode_opByte 0x3 _
  | convert raw =>
    obtain ⟨high, r0, rfl⟩ := exists_append (v := 13) (w := 8) raw
    obtain ⟨r2, r1, rfl⟩ := exists_append (v := 5) (w := 8) high
    rw [encode_convert, decode_opByte]
    exact map_narrow_eq_ok.2 ⟨_, zero_append_three r2 r1 r0, rfl⟩
  | statusFlags status => exact (decode_opByte 0x5 _).trans (map_narrow_eq_ok.2 ⟨status, rfl, rfl⟩)
  | calDecode v => exact decode_opByte 0x6 _
  | xfer cmd addr data =>
    obtain ⟨ah, al, rfl⟩ := exists_append (v := 8) (w := 8) addr
    rw [encode_xfer, decode_opByte]
    exact map_narrow_eq_ok.2 ⟨cmd, rfl, rfl⟩
  | readAngle => rfl
  | streamStart => rfl
  | streamByte => rfl
  | streamStop => rfl
  | reservedOp low => exact (decode_opByte _ _).trans (decodeOp_reserved low [])

/-- Settles O19. -/
theorem headerSplit : Obligations.HeaderSplit := header_eq

/-- Settles O52: the opcode nibble alone decides. -/
theorem reservedOpcodesRefused : Obligations.ReservedOpcodesRefused := by
  have reserved : ∀ opc ∈ ([0x0, 0x1, 0x2, 0x4, 0x7, 0x8, 0x9, 0xB, 0xD, 0xE, 0xF] : List Cmd),
      WireCmd.ofCode opc = none := by decide
  refine ⟨fun opc low rest h => ?_, fun low => ?_, fun opc low h => ?_⟩
  · simp [frameSlots, decodeFrame, reserved opc h]
  · simp [frameSlots, WireCmd.ofCode]
  · simp only [List.mem_cons, List.not_mem_nil, or_false] at h
    rcases h with rfl | rfl | rfl | rfl <;> simp [frameSlots, WireCmd.ofCode]

/-- Settles O53, by evaluating the decoder on each word. -/
theorem knownWordsDecode : Obligations.KnownWordsDecode :=
  ⟨rfl, rfl, rfl, rfl, rfl, rfl, rfl, rfl, rfl, rfl⟩

end Sys2Proof.Proofs
end

section
/-! Three-slot frames that complete, and ones that a BusError ends (40_codec.md rules R102, R103, R105). -/

namespace Sys2Proof.Proofs

open Sys2Proof.Machine Sys2Proof.Safety Sys2Proof.Laws

/-- A transfer whose three slots are answered ends as its reply says (R74, R102). -/
theorem transfer_answered {s : State} {w : WireCmd} {addr : Addr} {data o0 o1 o2 i0 i1 i2 : Byte}
    (hok : addrOk w addr = true) (hout : outBytes w addr data = [o0, o1, o2]) (ha : s.strmActive = false)
    (hl : s.pwrCycleLock = false) (hans : Answered s [i0, i1, i2]) :
    s.transfer w addr data =
      ((s.skipSlots 3).emit [.csAssert, .xchg o0 i0, .xchg o1 i1, .xchg o2 i2, .csDeassert]).conclude
        (replyVerdict w [i0, i1, i2]) := by
  have frame := frame_three (answered_getElem hans 0 (by simp)) (answered_getElem hans 1 (by simp))
    (answered_getElem hans 2 (by simp)) o0 o1 o2
  rw [State.transfer, if_pos hok, openBus_free ha hl, hout, frame]
  rfl

/-- The acknowledgement of BURN_EEPROM and SET_ZERO (R105). -/
theorem ackVerdict_eq (ack : Byte) :
    ackVerdict ack = .ok (if ack = 0x55 then .ok else .commandNotAcknowledged, .nothing) :=
  (apply_ite (fun st => Except.ok (st, Result.nothing)) (ack = 0x55) Status.ok .commandNotAcknowledged).symm

/-- Settles O22: each command is the transfer of its frame, and its reply reads slot 2 alone. -/
theorem xferCompletes : Obligations.XferCompletes := by
  intro addr data i0 i1 i2 s hf ha hl hans
  have legal (hr : addr.toNat < 4096) : addrLegal addr = true := addrLegal_iff_lt.2 hr
  refine ⟨fun hr => ⟨?_, ?_⟩, ?_, ?_⟩ <;> rw [exec_running hf]
  · exact congrArg _ (transfer_answered (w := .readByte) (legal hr) (outBytes_readByte hr data) ha hl hans)
  · exact congrArg _ (transfer_answered (w := .writeByte) (legal hr) (outBytes_writeByte hr data) ha hl hans)
  · have sent := transfer_answered (w := .burnEeprom) (addr := addr) (data := data) rfl rfl ha hl hans
    rw [replyVerdict, ackVerdict_eq] at sent
    exact congrArg _ sent
  · have sent := transfer_answered (w := .setZero) (addr := addr) (data := data) rfl rfl ha hl hans
    rw [replyVerdict, ackVerdict_eq] at sent
    exact congrArg _ sent

/-! Failing after the slots answered with `ins`. -/

/-- The next slots are answered with `ins`, and the one after them fails with BusError. -/
def FailsAfter (s : State) (ins : List Byte) : Prop :=
  (∀ k (hk : k < ins.length), s.slotAnswer k = .byte ins[k]) ∧ s.slotAnswer ins.length = .busError

/-- A frame one of whose slots fails: that slot is the last one sent, and CS_DEASSERT follows (R103). -/
theorem frame_fails {s : State} {outs ins : List Byte} (h : FailsAfter s ins) (hlt : ins.length < outs.length) :
    s.frame outs = (.busError, (s.skipSlots (ins.length + 1)).emit
      (.csAssert :: xchgEvents outs ins ++ [.xchgError (outs.getD ins.length 0), .csDeassert])) := by
  obtain ⟨pre, o, post, rfl, hl⟩ : ∃ pre o post, outs = pre ++ o :: post ∧ pre.length = ins.length :=
    ⟨outs.take ins.length, outs[ins.length], outs.drop (ins.length + 1), by simp, by simp [hlt.le]⟩
  have events : xchgEvents (pre ++ o :: post) ins = xchgEvents pre ins := by
    simpa [xchgEvents] using List.zipWith_append (f := BusEvent.xchg) (l₁' := o :: post) (l₂' := []) hl
  have failing : (pre ++ o :: post).getD ins.length 0 = o := by simp [← hl]
  rw [State.frame, slots_failAt (s := s.emit [.csAssert]) hl h.1 h.2, events, failing]
  simp [skipSlots_emit]

/-- A transfer one of whose slots fails returns BusError with no result (R103). -/
theorem transfer_fails {s : State} {w : WireCmd} {addr : Addr} {ins : List Byte} (data : Byte)
    (hok : addrOk w addr = true) (ha : s.strmActive = false) (hl : s.pwrCycleLock = false) (h : FailsAfter s ins)
    (hlt : ins.length < (outBytes w addr data).length) :
    s.transfer w addr data = ((s.skipSlots (ins.length + 1)).emit (.csAssert :: xchgEvents (outBytes w addr data) ins ++
      [.xchgError ((outBytes w addr data).getD ins.length 0), .csDeassert])).answer .busError .nothing := by
  rw [State.transfer, if_pos hok, openBus_free ha hl, frame_fails h hlt]

/-- Settles O26: every such request is the transfer of its frame. -/
theorem busErrorEndsTransfer : Obligations.BusErrorEndsTransfer := by
  intro i out ins s hi hf ha hl hlt hans he
  obtain ⟨w, addr, data, hbody, hok, rfl, hlen⟩ := sendsFrame_transfer hi
  have failed := transfer_fails data hok ha hl ⟨answered_getElem hans, he⟩ (by omega)
  rw [exec_running hf, congrFun hbody s, failed, List.append_assoc]
  rfl

/-- Settles O10: the body of a reserved op raises the fault. -/
theorem reservedOpRaisesFault : Obligations.ReservedOpRaisesFault :=
  fun low _ hf => exec_running hf (.reservedOp low)

end Sys2Proof.Proofs
end

section
/-! Pseudo-operations as the requests they expand to (30_encoding.md rule R84). -/

namespace Sys2Proof.Proofs

open Sys2Proof.Machine Sys2Proof.Safety Sys2Proof.Laws

/-- The result of a request is read off the one response it appends (R29). -/
theorem okResult_eq_some {i : Instr} {s t : State} (h : exec i s = .next t) (r : Result) :
    okResult s t = some r ↔ t.responses = s.responses ++ [.status .ok r] := by
  obtain ⟨-, more, hmore⟩ : Appends s t := by
    obtain rfl := Host.Outcome.next.inj ((exec_eq i s).symm.trans h)
    exact appends_accept_body i s
  rw [okResult, ← hmore, List.drop_left, List.append_cancel_left_eq]
  constructor
  · intro hr
    split at hr
    · rw [Option.some.inj hr]
    · cases hr
  · rintro rfl
    rfl

theorem okResult_eq_none {i : Instr} {s t : State} (h : exec i s = .next t) :
    okResult s t = none ↔ ∀ r, t.responses ≠ s.responses ++ [.status .ok r] := by
  simp only [Option.eq_none_iff_forall_ne_some, ne_eq, okResult_eq_some h]

theorem runRequests_singleton (i : Instr) (s : State) : runRequests s [i] = exec i s := by
  simp [runRequests, exec_eq]

theorem runRequests_ok {i : Instr} {s t : State} (h : exec i s = .next t) {r : Result}
    (hr : t.responses = s.responses ++ [.status .ok r]) (rest : List Instr) :
    runRequests s (i :: rest) = runRequests t rest := by
  simp [runRequests, h, (okResult_eq_some h r).2 hr]

theorem runRequests_stops {i : Instr} {s t : State} (h : exec i s = .next t)
    (hr : ∀ r, t.responses ≠ s.responses ++ [.status .ok r]) (rest : List Instr) :
    runRequests s (i :: rest) = .next t := by
  simp [runRequests, h, (okResult_eq_none h).2 hr]

/-- One request up to m times in a row: it ends with the n-th if that is the last one, or the first that does not
return OK. -/
theorem runRequests_replicate (i : Instr) (m : Nat) : ∀ (n : Nat) (u : Nat → State), 1 ≤ n → n ≤ m →
    (∀ k, k < n → exec i (u k) = .next (u (k + 1))) →
    (∀ k, k + 1 < n → ∃ r, (u (k + 1)).responses = (u k).responses ++ [.status .ok r]) →
    (n = m ∨ ∀ r, (u n).responses ≠ (u (n - 1)).responses ++ [.status .ok r]) →
    runRequests (u 0) (List.replicate m i) = .next (u n) := by
  induction m with
  | zero => intro n u h1 hn; omega
  | succ m ih =>
    intro n u h1 hn hexec hok hend
    rw [List.replicate_succ]
    obtain _ | n := n
    · omega
    obtain _ | n := n
    · rcases hend with hm | hstop
      · obtain rfl : m = 0 := by omega
        exact (runRequests_singleton i _).trans (hexec 0 h1)
      · exact runRequests_stops (hexec 0 h1) hstop _
    · obtain ⟨r, hr⟩ := hok 0 (by omega)
      rw [runRequests_ok (hexec 0 (by omega)) hr]
      exact ih (n + 1) (fun k => u (k + 1)) (by omega) (by omega) (fun k hk => hexec (k + 1) (by omega))
        (fun k hk => hok (k + 1) (by omega)) (hend.imp_left (by omega))

/-- A pseudo-operation other than POLL_CAL is its requests in a row. -/
theorem runPseudo_eq {p : Pseudo} (h : p ≠ .pollCal) (s : State) :
    runPseudo p s = runRequests s (Pseudo.requests p) := by
  unfold runPseudo
  rcases runRequests s (Pseudo.requests p) with t | r | r
  · cases p with
    | pollCal => exact absurd rfl h
    | _ => rfl
  · rfl
  · rfl

/-- A pseudo-operation other than POLL_CAL that spells one request is this request. -/
theorem runPseudo_of_requests {p : Pseudo} {i : Instr} (h : p ≠ .pollCal) (hp : Pseudo.requests p = [i]) (s : State) :
    runPseudo p s = exec i s := by rw [runPseudo_eq h, hp, runRequests_singleton]

/-- Settles O48: each pseudo-operation is its requests in a row, and POLL_CAL goes on only with a byte returned OK. -/
theorem pseudoOpsExpand : Obligations.PseudoOpsExpand := by
  refine ⟨fun addr data s => ⟨runPseudo_of_requests (by simp) rfl s, runPseudo_of_requests (by simp) rfl s,
    runPseudo_of_requests (by simp) rfl s, runPseudo_of_requests (by simp) rfl s⟩,
    fun u n h1 h4 hexec hok hend => ?_, fun s t v h => ?_⟩
  · rw [runPseudo_eq (by simp)]
    exact runRequests_replicate .streamByte 4 n u h1 h4 hexec hok hend
  · have hrun : runRequests s (Pseudo.requests .pollCal) = .next t := (runRequests_singleton _ s).trans h
    refine ⟨fun hr => ?_, fun hr => ?_⟩
    · simp only [runPseudo, hrun, (okResult_eq_some h _).2 hr]
    · simp only [runPseudo, hrun, (okResult_eq_none h).2 hr]

/-- A byte that does not complete its group is buffered, and the answer is OK with nothing (R184). -/
theorem takeGroupByte_buffers {s : State} (h : s.strmIdx.toNat < 3) (r : Byte) :
    ∃ b0 b1 b2, s.takeGroupByte r = (withAligner s s.strmActive (s.strmIdx + 1) b0 b1 b2).answer .ok .nothing := by
  rcases strmIdx_cases s with hi | hi | hi | hi
  · exact ⟨_, _, _, by rw [takeGroupByte_first hi, hi]; rfl⟩
  · exact ⟨_, _, _, by rw [takeGroupByte_second hi, hi]; rfl⟩
  · exact ⟨_, _, _, by rw [takeGroupByte_third hi, hi]; rfl⟩
  · simp [hi] at h

theorem failsAfter_tail {s : State} {r : Byte} {ins : List Byte} (h : FailsAfter s (r :: ins)) :
    FailsAfter (s.skipSlots 1) ins := by
  obtain ⟨hbytes, hfails⟩ := h
  refine ⟨fun k hk => ?_, ?_⟩
  · rw [slotAnswer_skipSlots, Nat.add_comm]
    exact hbytes (k + 1) (by simpa using hk)
  · rw [slotAnswer_skipSlots, Nat.add_comm]
    exact hfails

/-- A STREAM_BYTE that does not complete its group answers OK with nothing and moves the index on (R184). -/
theorem exec_streamByte_buffers {s : State} {r : Byte} (hf : s.fault = false) (ha : s.strmActive = true)
    (hidx : s.strmIdx.toNat < 3) (hr : s.slotAnswer 0 = .byte r) :
    ∃ b0 b1 b2, exec .streamByte s =
      .next ((withAligner ((s.skipSlots 1).emit [.xchg 0x00 r]) true (s.strmIdx + 1) b0 b1 b2).answer .ok .nothing) := by
  obtain ⟨b0, b1, b2, hbuf⟩ := takeGroupByte_buffers (s := (s.skipSlots 1).emit [.xchg Config.dummyByte r]) hidx r
  refine ⟨b0, b1, b2, ?_⟩
  rw [exec_running hf, streamByte_byte ha hr, hbuf, emit_strmActive, skipSlots_strmActive, ha]
  rfl

/-- STREAM_BYTE requests in a row, one of which fails before the group is complete (R185). -/
theorem runRequests_streamByte_fails (ins : List Byte) : ∀ (m : Nat) (s : State), s.fault = false →
    s.strmActive = true → s.strmIdx.toNat + ins.length < 4 → ins.length < m → FailsAfter s ins →
    ∃ t, runRequests s (List.replicate m .streamByte) = .next t ∧ t.strmActive = false ∧ t.strmIdx = 0 ∧
      t.responses = s.responses ++ List.replicate ins.length (.status .ok .nothing) ++
        [.status .busError .nothing] ∧
      t.trace = s.trace ++ ins.map (BusEvent.xchg 0x00) ++ [.xchgError 0x00, .csDeassert] := by
  induction ins with
  | nil =>
    intro m s hf ha _ hm h
    obtain ⟨m, rfl⟩ := Nat.exists_eq_succ_of_ne_zero (Nat.ne_of_gt hm)
    have hexec := (exec_running hf .streamByte).trans (congrArg _ (streamByte_busError ha h.2))
    refine ⟨_, runRequests_stops hexec ?_ _, rfl, rfl, ?_, ?_⟩
    · simp [State.abortStream]
    · simp [State.abortStream]
    · simp [State.abortStream, Config.dummyByte]
  | cons r ins ih =>
    intro m s hf ha hidx hm h
    rw [List.length_cons] at hidx hm
    obtain ⟨m, rfl⟩ := Nat.exists_eq_succ_of_ne_zero (Nat.ne_of_gt (Nat.zero_lt_of_lt hm))
    obtain ⟨b0, b1, b2, hexec⟩ := exec_streamByte_buffers hf ha (by omega) (h.1 0 (by simp))
    obtain ⟨t, hrun, hactive, hindex, hresp, htrace⟩ := ih m
      ((withAligner ((s.skipSlots 1).emit [.xchg 0x00 r]) true (s.strmIdx + 1) b0 b1 b2).answer .ok .nothing)
      hf rfl (by simp [withAligner]; omega) (by omega) (failsAfter_tail h)
    refine ⟨t, (runRequests_ok hexec rfl _).trans hrun, hactive, hindex, ?_, ?_⟩
    · simpa [withAligner, List.replicate_succ] using hresp
    · simpa [withAligner] using htrace

/-- Settles O49: a group is up to four STREAM_BYTE requests, and starts at index 0. -/
theorem streamGroupStopsAtBusError : Obligations.StreamGroupStopsAtBusError := by
  intro ins s hf ha hidx hlt hans he
  rw [runPseudo_eq (by simp)]
  exact runRequests_streamByte_fails ins 4 s hf ha (by simpa [hidx] using hlt) hlt ⟨answered_getElem hans, he⟩

end Sys2Proof.Proofs
end

section
/-! The codec ops and the four three-slot wire commands, by command (40_codec.md rules R100, R101, R105, R110 to
R121). -/

namespace Sys2Proof.Proofs

open Sys2Proof.Machine Sys2Proof.Safety Sys2Proof.Laws

/-! The pure requests end by a verdict on their operands (R204, R207). -/

/-- What a request that touches no bus answers is decided by its operands alone. -/
theorem body_concludes {i : Instr} (hi : touchesNoBus i = true) : ∃ v : Verdict, body i = (State.conclude · v) := by
  cases i with
  | encode cmd addr data => exact ⟨encodeVerdict cmd addr data, rfl⟩
  | decode cmd ins => exact ⟨decodeVerdict cmd ins, rfl⟩
  | crc8 payload => exact ⟨.ok (.ok, .byte (crc8 payload)), rfl⟩
  | assemble b0 b1 b2 b3 => exact ⟨.ok (.ok, .sample (assemble b0 b1 b2 b3)), rfl⟩
  | convert raw => exact ⟨.ok (.ok, .degrees (convert raw) (floatOut Config.angleFloat raw)), rfl⟩
  | statusFlags status => exact ⟨.ok (.ok, .flags (statusFlagsOf status)), rfl⟩
  | calDecode v => exact ⟨.ok (.ok, .cal (calStateOf v)), rfl⟩
  | reservedOp low => exact ⟨.error .reservedOp, rfl⟩
  | _ => cases hi

/-- A verdict writes the fault record and the responses, nothing else. -/
theorem conclude_frame (s : State) (v : Verdict) :
    s.conclude v = { s with
      fault := (s.conclude v).fault, faultCause := (s.conclude v).faultCause
      responses := (s.conclude v).responses } := by
  rcases v with c | ⟨st, r⟩ <;> rfl

/-- Settles O16: such a request is a verdict, or the answer of a halted block. -/
theorem pureRequestsFrame : Obligations.PureRequestsFrame := by
  intro i s t hi h
  rcases hf : s.fault
  · obtain ⟨v, hv⟩ := body_concludes hi
    rw [exec_running hf, hv, Host.Outcome.next.injEq] at h
    exact h ▸ conclude_frame s v
  · rw [exec_halted hf, Host.Outcome.next.injEq] at h
    exact h ▸ rfl

/-! The commands of R71 and the reserved ones of R79. -/

theorem ofCode_eq_none {cmd : Cmd} (h : cmd ∉ ([0x3, 0x6, 0xC, 0x5, 0xA] : List Cmd)) :
    WireCmd.ofCode cmd = none := by
  simp only [List.mem_cons, List.not_mem_nil, or_false, not_or] at h
  obtain ⟨hread, hwrite, hburn, hzero, hburst⟩ := h
  rw [WireCmd.ofCode, if_neg hread, if_neg hwrite, if_neg hburn, if_neg hzero, if_neg hburst]

/-! ENCODE (R100). -/

theorem exec_encode {s : State} (hf : s.fault = false) {cmd : Cmd} {addr : Addr} {data : Byte} {v : Verdict}
    (h : encodeVerdict cmd addr data = v) : exec (.encode cmd addr data) s = .next (s.conclude v) :=
  h ▸ exec_running hf _

theorem encodeVerdict_code (w : WireCmd) (addr : Addr) (data : Byte) :
    encodeVerdict w.code addr data =
      if addrOk w addr then .ok (.ok, .bytes (outBytes w addr data)) else .error .addressRange := by
  rw [encodeVerdict, ofCode_code]

theorem encodeVerdict_reserved {cmd : Cmd} (h : WireCmd.ofCode cmd = none) (addr : Addr) (data : Byte) :
    encodeVerdict cmd addr data = .error .illegalCmd := by rw [encodeVerdict, h]

/-- Settles O20: the address matters to READ_BYTE and WRITE_BYTE alone, and is legal below 0x1000. -/
theorem encodeBuildsFrame : Obligations.EncodeBuildsFrame := by
  intro addr data s hf
  refine ⟨fun hr => ?_, fun hr => ?_, exec_encode hf (encodeVerdict_code .burnEeprom addr data),
    exec_encode hf (encodeVerdict_code .setZero addr data),
    exec_encode hf (encodeVerdict_code .readAngleBurst addr data),
    fun cmd h => exec_encode hf (encodeVerdict_reserved (ofCode_eq_none h) addr data)⟩
  · have legal : addrLegal addr = true := addrLegal_iff_lt.2 hr
    have read := (encodeVerdict_code .readByte addr data).trans (if_pos legal)
    have write := (encodeVerdict_code .writeByte addr data).trans (if_pos legal)
    rw [outBytes_readByte hr] at read
    rw [outBytes_writeByte hr] at write
    exact ⟨exec_encode hf read, exec_encode hf write⟩
  · have illegal : ¬ addrLegal addr = true := fun legal => absurd (addrLegal_iff_lt.1 legal) (not_lt.2 hr)
    exact ⟨exec_encode hf ((encodeVerdict_code .readByte addr data).trans (if_neg illegal)),
      exec_encode hf ((encodeVerdict_code .writeByte addr data).trans (if_neg illegal))⟩

/-! The groups of a burst (R101, R180). -/

theorem groups_flatMap (quads : List (Byte × Byte × Byte × Byte)) :
    groups (quads.flatMap fun q => [q.1, q.2.1, q.2.2.1, q.2.2.2]) =
      some (quads.map fun q => assemble q.1 q.2.1 q.2.2.1 q.2.2.2) := by
  induction quads with
  | nil => rfl
  | cons q quads ih => simp [groups, ih]

/-- A number of bytes that is no multiple of 4 leaves a partial group over. -/
theorem groups_eq_none {ins : List Byte} (h : ins.length % 4 ≠ 0) : groups ins = none := by
  fun_induction groups ins with
  | case1 => exact absurd rfl h
  | case2 b0 b1 b2 b3 rest ih => rw [ih (by simp only [List.length_cons] at h; omega), Option.map_none]
  | case3 => rfl

/-! DECODE (R101, R112, R115, R118, R121). -/

theorem exec_decode {s : State} (hf : s.fault = false) {cmd : Cmd} {ins : List Byte} {v : Verdict}
    (h : decodeVerdict cmd ins = v) : exec (.decode cmd ins) s = .next (s.conclude v) :=
  h ▸ exec_running hf _

theorem decodeVerdict_code (w : WireCmd) (ins : List Byte) : decodeVerdict w.code ins = replyVerdict w ins := by
  rw [decodeVerdict, ofCode_code]

theorem decodeVerdict_reserved {cmd : Cmd} (h : WireCmd.ofCode cmd = none) (ins : List Byte) :
    decodeVerdict cmd ins = .error .illegalCmd := by rw [decodeVerdict, h]

theorem replyVerdict_burst_groups (h0 h1 : Byte) (quads : List (Byte × Byte × Byte × Byte)) :
    replyVerdict .readAngleBurst (h0 :: h1 :: quads.flatMap fun q => [q.1, q.2.1, q.2.2.1, q.2.2.2]) =
      .ok (.ok, .samples (quads.map fun q => assemble q.1 q.2.1 q.2.2.1 q.2.2.2)) := by
  rw [replyVerdict, groups_flatMap]

/-- A three-slot frame has three in-bytes. -/
theorem replyVerdict_frameLength {w : WireCmd} (hw : w ≠ .readAngleBurst) {ins : List Byte} (h : ins.length ≠ 3) :
    replyVerdict w ins = .error .frameLength := by
  unfold replyVerdict
  split
  case h_5 => exact absurd rfl hw
  case h_6 => rfl
  all_goals exact absurd rfl h

/-- A burst has the two header bytes and whole groups, so a partial one is never decoded. -/
theorem replyVerdict_burst_frameLength {ins : List Byte} (h : ins.length < 2 ∨ (ins.length - 2) % 4 ≠ 0) :
    replyVerdict .readAngleBurst ins = .error .frameLength := by
  rcases ins with _ | ⟨h0, _ | ⟨h1, rest⟩⟩
  · rfl
  · rfl
  · have partialGroup : rest.length % 4 ≠ 0 := by simpa using h
    rw [replyVerdict, groups_eq_none partialGroup]

/-- Settles O21: the reply of each command, by the length of the in-bytes. -/
theorem decodeReadsReply : Obligations.DecodeReadsReply := by
  intro s hf
  have replies {w : WireCmd} {ins : List Byte} {v : Verdict} (h : replyVerdict w ins = v) :
      exec (.decode w.code ins) s = .next (s.conclude v) := exec_decode hf ((decodeVerdict_code w ins).trans h)
  refine ⟨fun i0 i1 i2 => ⟨?_, ?_, ?_, ?_⟩, fun h0 h1 quads => ?_, fun ins h => ⟨?_, ?_, ?_, ?_⟩,
    fun ins h => ?_, fun cmd ins h => exec_decode hf (decodeVerdict_reserved (ofCode_eq_none h) ins)⟩
  · exact replies (w := .readByte) rfl
  · exact replies (w := .writeByte) rfl
  · exact replies (w := .burnEeprom) (ins := [i0, i1, i2]) (ackVerdict_eq i2)
  · exact replies (w := .setZero) (ins := [i0, i1, i2]) (ackVerdict_eq i2)
  · exact replies (replyVerdict_burst_groups h0 h1 quads)
  · exact replies (replyVerdict_frameLength (w := .readByte) (by decide) h)
  · exact replies (replyVerdict_frameLength (w := .writeByte) (by decide) h)
  · exact replies (replyVerdict_frameLength (w := .burnEeprom) (by decide) h)
  · exact replies (replyVerdict_frameLength (w := .setZero) (by decide) h)
  · exact replies (replyVerdict_burst_frameLength h)

/-! A three-slot wire command is the XFER of its opcode (R111, R114, R117, R120). -/

theorem exec_readByte_eq_xfer (addr : Addr) (s : State) : exec (.readByte addr) s = exec (.xfer 0x3 addr 0) s := rfl

theorem exec_writeByte_eq_xfer (addr : Addr) (data : Byte) (s : State) :
    exec (.writeByte addr data) s = exec (.xfer 0x6 addr data) s := rfl

theorem exec_burnEeprom_eq_xfer (s : State) : exec .burnEeprom s = exec (.xfer 0xC 0 0) s := rfl

theorem exec_setZero_eq_xfer (s : State) : exec .setZero s = exec (.xfer 0x5 0 0) s := rfl

/-- Settles O23, from what XFER does (O22). -/
theorem readByteCompletes : Obligations.ReadByteCompletes := by
  intro addr i0 i1 i2 s hr hf ha hl hans
  obtain ⟨inRange, -, -⟩ := xferCompletes addr 0 i0 i1 i2 s hf ha hl hans
  exact (exec_readByte_eq_xfer addr s).trans (inRange hr).1

/-- Settles O24, from what XFER does (O22). -/
theorem writeByteCompletes : Obligations.WriteByteCompletes := by
  intro addr data i0 i1 i2 s hr hf ha hl hans
  obtain ⟨inRange, -, -⟩ := xferCompletes addr data i0 i1 i2 s hf ha hl hans
  exact (exec_writeByte_eq_xfer addr data s).trans (inRange hr).2

/-- Settles O25, from what XFER does (O22). -/
theorem acknowledgedCommandsComplete : Obligations.AcknowledgedCommandsComplete := by
  intro i0 i1 i2 s hf ha hl hans
  obtain ⟨-, burn, zero⟩ := xferCompletes 0 0 i0 i1 i2 s hf ha hl hans
  exact ⟨(exec_burnEeprom_eq_xfer s).trans burn, (exec_setZero_eq_xfer s).trans zero⟩

end Sys2Proof.Proofs
end

section
/-! What XFER appends depends on its operands, the lock, the open stream and the answers of its slots (40_codec.md rule
R104). -/

namespace Sys2Proof.Proofs

open Sys2Proof.Machine Sys2Proof.Safety Sys2Proof.Laws

/-- From s to u and from t to v the same bus events and the same responses were appended. -/
def GrowAlike (s t u v : State) : Prop :=
  ∃ es rs, u.trace = s.trace ++ es ∧ v.trace = t.trace ++ es ∧
    u.responses = s.responses ++ rs ∧ v.responses = t.responses ++ rs

theorem GrowAlike.refl (s t : State) : GrowAlike s t s t := ⟨[], [], by simp⟩

theorem GrowAlike.emit {s t u v : State} (h : GrowAlike s t u v) (es : List BusEvent) :
    GrowAlike s t (u.emit es) (v.emit es) := by
  obtain ⟨ds, rs, hu, hv, hur, hvr⟩ := h
  exact ⟨ds ++ es, rs, by simp [hu], by simp [hv], hur, hvr⟩

theorem GrowAlike.respond {s t u v : State} (h : GrowAlike s t u v) (r : Response) :
    GrowAlike s t (u.respond r) (v.respond r) := by
  obtain ⟨es, rs, hu, hv, hur, hvr⟩ := h
  exact ⟨es, rs ++ [r], hu, hv, by simp [hur], by simp [hvr]⟩

theorem GrowAlike.answer {s t u v : State} (h : GrowAlike s t u v) (st : Status) (r : Result) :
    GrowAlike s t (u.answer st r) (v.answer st r) := h.respond _

theorem GrowAlike.raiseFault {s t u v : State} (h : GrowAlike s t u v) (c : FaultCause) :
    GrowAlike s t (u.raiseFault c) (v.raiseFault c) := h.respond (.fault c.code)

theorem GrowAlike.conclude {s t u v : State} (h : GrowAlike s t u v) (d : Verdict) :
    GrowAlike s t (u.conclude d) (v.conclude d) := by
  rcases d with c | ⟨st, r⟩
  · exact h.raiseFault c
  · exact h.answer st r

theorem GrowAlike.skipSlots {s t u v : State} (h : GrowAlike s t u v) (k : Nat) :
    GrowAlike s t (u.skipSlots k) (v.skipSlots k) := h

theorem GrowAlike.hang {s t u v : State} (h : GrowAlike s t u v) : GrowAlike s t u.hang v.hang := h

/-- The next n slots get the same answers in both states. -/
def SameAnswers (n : Nat) (s t : State) : Prop := ∀ k, k < n → s.slotAnswer k = t.slotAnswer k

theorem SameAnswers.tail {n : Nat} {s t : State} (h : SameAnswers (n + 1) s t) (es : List BusEvent) :
    SameAnswers n ((s.skipSlots 1).emit es) ((t.skipSlots 1).emit es) := by
  intro k hk
  simpa using h (1 + k) (by omega)

/-- Two pieces of requests end in the same way, having appended the same. -/
def EndAlike (s t : State) (p q : SlotsEnd × State) : Prop :=
  ∃ e u v, p = (e, u) ∧ q = (e, v) ∧ GrowAlike s t u v

theorem slots_endAlike (outs : List Byte) : ∀ {s t u v : State}, SameAnswers outs.length u v → GrowAlike s t u v →
    EndAlike s t (u.slots outs) (v.slots outs) := by
  induction outs with
  | nil => exact fun _ h => ⟨_, _, _, rfl, rfl, h⟩
  | cons o outs ih =>
    intro s t u v hans h
    have first : u.slotAnswer 0 = v.slotAnswer 0 := hans 0 (by simp)
    rcases hv : v.slotAnswer 0 with i | _ | _ <;> have hu := first.trans hv
    · obtain ⟨e, u', v', eu, ev, grow⟩ := ih (hans.tail [.xchg o i]) ((h.skipSlots 1).emit _)
      exact ⟨e.cons i, u', v', by rw [slots_byte hu, eu], by rw [slots_byte hv, ev], grow⟩
    · exact ⟨_, _, _, slots_busError hu o outs, slots_busError hv o outs, (h.skipSlots 1).emit _⟩
    · exact ⟨_, _, _, slots_never hu o outs, slots_never hv o outs, h.skipSlots 1⟩

/-- Whole frames with the same answers (R102, R103). -/
theorem frame_endAlike {s t : State} {outs : List Byte} (hans : SameAnswers outs.length s t) :
    EndAlike s t (s.frame outs) (t.frame outs) := by
  obtain ⟨e, u, v, eu, ev, grow⟩ := slots_endAlike outs (u := s.emit [.csAssert]) (v := t.emit [.csAssert]) hans
    ((GrowAlike.refl s t).emit _)
  rw [State.frame, State.frame, eu, ev]
  rcases e with ins | _ | _
  · exact ⟨_, _, _, rfl, rfl, grow.emit _⟩
  · exact ⟨_, _, _, rfl, rfl, grow.emit _⟩
  · exact ⟨_, _, _, rfl, rfl, grow.hang⟩

/-- Two states that pass or fail checks 4 and 5 of R206 alike. -/
theorem openBus_growAlike {s t : State} {run : State → State} (hl : s.pwrCycleLock = t.pwrCycleLock)
    (ha : s.strmActive = t.strmActive) (hrun : GrowAlike s t (run s) (run t)) :
    GrowAlike s t (s.openBus run) (t.openBus run) := by
  rcases hta : t.strmActive <;> have hsa := ha.trans hta
  · rcases htl : t.pwrCycleLock <;> have hsl := hl.trans htl
    · rwa [openBus_free hsa hsl, openBus_free hta htl]
    · rw [openBus_locked hsa hsl, openBus_locked hta htl]
      exact (GrowAlike.refl s t).answer _ _
  · rw [openBus_busy hsa, openBus_busy hta]
    exact (GrowAlike.refl s t).raiseFault _

theorem transfer_growAlike {s t : State} {w : WireCmd} {addr : Addr} {data : Byte}
    (hl : s.pwrCycleLock = t.pwrCycleLock) (ha : s.strmActive = t.strmActive)
    (hans : SameAnswers (outBytes w addr data).length s t) :
    GrowAlike s t (s.transfer w addr data) (t.transfer w addr data) := by
  unfold State.transfer
  split
  · apply openBus_growAlike hl ha
    obtain ⟨e, u, v, eu, ev, grow⟩ := frame_endAlike hans
    rw [eu, ev]
    rcases e with ins | _ | _
    · exact grow.conclude _
    · exact grow.answer _ _
    · exact grow
  · exact (GrowAlike.refl s t).raiseFault _

/-- No frame of the five commands has out-bytes beyond slot 2 (R73, R75). -/
theorem length_outBytes_le (w : WireCmd) (addr : Addr) (data : Byte) : (outBytes w addr data).length ≤ 3 := by
  cases w <;> simp [outBytes, header]

theorem body_xfer_growAlike {s t : State} (hl : s.pwrCycleLock = t.pwrCycleLock) (ha : s.strmActive = t.strmActive)
    (hans : SameAnswers 3 s t) (cmd : Cmd) (addr : Addr) (data : Byte) :
    GrowAlike s t (body (.xfer cmd addr data) s) (body (.xfer cmd addr data) t) := by
  have transfer (w : WireCmd) : GrowAlike s t (s.transfer w addr data) (t.transfer w addr data) :=
    transfer_growAlike hl ha fun k hk => hans k (hk.trans_le (length_outBytes_le w addr data))
  simp only [body]
  split
  · exact (GrowAlike.refl s t).raiseFault _
  · exact (GrowAlike.refl s t).raiseFault _
  · exact transfer _

/-- Settles O27: both runs append the same, and what they append is what is left past what stood before. -/
theorem xferDependsOnThreeSlots : Obligations.XferDependsOnThreeSlots := by
  intro cmd addr data s t s' t' hfs hft hl ha hans hs ht
  rw [exec_running hfs, Host.Outcome.next.injEq] at hs
  rw [exec_running hft, Host.Outcome.next.injEq] at ht
  obtain ⟨es, rs, hst, htt, hsr, htr⟩ := body_xfer_growAlike hl ha hans cmd addr data
  simp only [← hs, ← ht, hst, htt, hsr, htr, List.drop_left, and_self]

end Sys2Proof.Proofs
end

section
/-! The loop of R130 over the bits of a vector: it is linear over GF(2), a byte may be added to the register before its
bits enter, and zeros that enter lose nothing of the register (41_crc8.md rules R130, R132 to R136). -/

namespace Sys2Proof.Proofs

open Sys2Proof.Machine Sys2Proof.Safety

/-! The bits of a vector, most significant first. -/

theorem bitsMsb_congr {w w' : Nat} {v : BitVec w} {u : BitVec w'} {n : Nat} (h : ∀ i < n, v.getLsbD i = u.getLsbD i) :
    bitsMsb v n = bitsMsb u n := by
  induction n with
  | zero => rfl
  | succ n ih => rw [bitsMsb, bitsMsb, h n n.lt_succ_self, ih fun i hi => h i (hi.trans n.lt_succ_self)]

theorem bitsMsb_zero (w n : Nat) : bitsMsb (0#w) n = List.replicate n false := by
  induction n with
  | zero => rfl
  | succ n ih => rw [bitsMsb, ih, BitVec.getLsbD_zero, List.replicate_succ]

theorem bitsMsb_add {w : Nat} (v : BitVec w) (n m : Nat) : bitsMsb v (n + m) = bitsMsb (v >>> m) n ++ bitsMsb v m := by
  induction n with
  | zero => rw [Nat.zero_add, bitsMsb, List.nil_append]
  | succ n ih => rw [Nat.succ_add, bitsMsb, bitsMsb, ih, BitVec.getLsbD_ushiftRight, Nat.add_comm n m, List.cons_append]

theorem bitsMsb_extractLsb' {w : Nat} (v : BitVec w) (m n : Nat) :
    bitsMsb (v.extractLsb' m n) n = bitsMsb (v >>> m) n :=
  bitsMsb_congr fun i hi => by simp [hi]

theorem bitsMsb_extractLsb'_zero {w : Nat} (v : BitVec w) (n : Nat) : bitsMsb (v.extractLsb' 0 n) n = bitsMsb v n :=
  bitsMsb_extractLsb' v 0 n

theorem bitsMsb_shiftLeft {w n k : Nat} (v : BitVec w) (h : n + k ≤ w) :
    bitsMsb (v <<< k) (n + k) = bitsMsb v n ++ List.replicate k false := by
  have high : bitsMsb ((v <<< k) >>> k) n = bitsMsb v n :=
    bitsMsb_congr fun i hi => by
      simp [show k + i < w by omega, BitVec.getLsbD_eq_getElem (show i < w by omega)]
  have low : bitsMsb (v <<< k) k = bitsMsb (0#w) k := bitsMsb_congr fun i hi => by simp [hi]
  rw [bitsMsb_add, high, low, bitsMsb_zero]

/-- The bits of a payload are those of its three bytes, P[23:16] first. -/
theorem bitsMsb_payload (p : Payload) :
    bitsMsb p 24 =
      bitsMsb (p.extractLsb' 16 8) 8 ++ (bitsMsb (p.extractLsb' 8 8) 8 ++ bitsMsb (p.extractLsb' 0 8) 8) := by
  rw [bitsMsb_extractLsb', bitsMsb_extractLsb', bitsMsb_extractLsb'_zero, ← bitsMsb_add, ← bitsMsb_add]

/-- The bits of an angle frame are those of its payload and then those of B3. -/
theorem bitsMsb_frame (f : BitVec 32) :
    bitsMsb f 32 = bitsMsb (f.extractLsb' 8 24) 24 ++ bitsMsb (f.extractLsb' 0 8) 8 := by
  rw [bitsMsb_extractLsb', bitsMsb_extractLsb'_zero, ← bitsMsb_add]

/-! The loop is linear (R134). -/

theorem crcStep_xor (c d : Byte) (a b : Bool) : crcStep (c ^^^ d) (a ^^ b) = crcStep c a ^^^ crcStep d b := by
  have feedback : ((c ^^^ d).msb ^^ (a ^^ b)) = ((c.msb ^^ a) ^^ (d.msb ^^ b)) := by
    rw [BitVec.msb_xor]
    generalize c.msb = x, d.msb = y
    revert x y a b
    decide
  have select (x y : Bool) (q : Byte) : (if x ^^ y then q else 0) = (if x then q else 0) ^^^ (if y then q else 0) := by
    cases x <;> cases y <;> simp
  rw [crcStep, feedback, select, BitVec.shiftLeft_xor_distrib, crcStep, crcStep]
  ac_rfl

theorem crcLoop_xor {w : Nat} (v u : BitVec w) (n : Nat) : ∀ c d : Byte,
    crcLoop (c ^^^ d) (bitsMsb (v ^^^ u) n) = crcLoop c (bitsMsb v n) ^^^ crcLoop d (bitsMsb u n) := by
  induction n with
  | zero => exact fun _ _ => rfl
  | succ n ih =>
    intro c d
    rw [bitsMsb, BitVec.getLsbD_xor]
    exact (congrArg (crcLoop · _) (crcStep_xor c d _ _)).trans (ih _ _)

theorem crcLoop_zero_xor {w : Nat} (v u : BitVec w) (n : Nat) :
    crcLoop 0 (bitsMsb (v ^^^ u) n) = crcLoop 0 (bitsMsb v n) ^^^ crcLoop 0 (bitsMsb u n) :=
  crcLoop_xor v u n 0 0

/-- CRC_XOROUT and CRC_INIT are 0 (R6). -/
theorem crc8_eq (p : Payload) : crc8 p = crcLoop 0 (bitsMsb p 24) := BitVec.xor_zero

/-- Settles O29: the loop from 0 is linear. -/
theorem crcIsLinear : Obligations.CrcIsLinear := by
  intro a b
  rw [crc8_eq, crc8_eq, crc8_eq, crcLoop_zero_xor]

/-! The loop over a byte (R132). -/

theorem crcLoop_append (c : Byte) (xs ys : List Bool) : crcLoop c (xs ++ ys) = crcLoop (crcLoop c xs) ys :=
  List.foldl_append

theorem crcTable_xor (a b : Byte) : crcTable (a ^^^ b) = crcTable a ^^^ crcTable b := crcLoop_zero_xor a b 8

theorem crcLoop_eight_zeros : ∀ c : Byte, crcLoop c (List.replicate 8 false) = crcTable c := by decide

/-- Eight bits that enter one by one are a byte added to the register, which eight zeros then carry to its end. -/
theorem crcLoop_byte (c b : Byte) : crcLoop c (bitsMsb b 8) = crcTable (c ^^^ b) :=
  calc crcLoop c (bitsMsb b 8)
    _ = crcLoop (c ^^^ 0#8) (bitsMsb (0#8 ^^^ b) 8) := by rw [BitVec.xor_zero, BitVec.zero_xor]
    _ = crcLoop c (bitsMsb (0#8) 8) ^^^ crcTable b := crcLoop_xor _ _ _ _ _
    _ = crcTable (c ^^^ b) := by rw [bitsMsb_zero, crcLoop_eight_zeros, crcTable_xor]

/-- Settles O30: each byte of the payload enters by one look-up. -/
theorem crcBytewiseAgrees : Obligations.CrcBytewiseAgrees := by
  intro p
  rw [crc8_eq, bitsMsb_payload, crcLoop_append, crcLoop_append, crcLoop_byte, crcLoop_byte, crcLoop_byte]
  rfl

/-! Zeros that enter: the register is 0 after them exactly when it was before. -/

theorem crcLoop_zeros (n : Nat) : crcLoop 0 (List.replicate n false) = 0 := by
  induction n with
  | zero => rfl
  | succ n ih => exact ih

theorem eq_zero_of_crcStep_false : ∀ c : Byte, crcStep c false = 0 → c = 0 := by decide

theorem crcLoop_zeros_eq_zero_iff {c : Byte} {n : Nat} : crcLoop c (List.replicate n false) = 0 ↔ c = 0 := by
  refine ⟨fun h => ?_, fun h => h ▸ crcLoop_zeros n⟩
  induction n generalizing c with
  | zero => exact h
  | succ n ih => exact eq_zero_of_crcStep_false c (ih h)

theorem crcTable_eq_zero_iff {b : Byte} : crcTable b = 0 ↔ b = 0 := by
  rw [← crcLoop_eight_zeros, crcLoop_zeros_eq_zero_iff]

/-- A byte takes the register to 0 exactly when it is the register's value. -/
theorem crcLoop_byte_eq_zero_iff {c b : Byte} : crcLoop c (bitsMsb b 8) = 0 ↔ c = b := by
  rw [crcLoop_byte, crcTable_eq_zero_iff]
  exact BitVec.xor_eq_zero_iff

/-! The check of an angle frame (R77, R135, R150). -/

theorem extractLsb'_extractLsb' {w s n i k : Nat} (v : BitVec w) (h : i + k ≤ n) :
    (v.extractLsb' s n).extractLsb' i k = v.extractLsb' (s + i) k := by
  ext j hj
  simp [show i + j < n by omega, Nat.add_assoc]

/-- What the check runs over, {raw, status}, is the bytes B0, B1 and B2 (R77). -/
theorem raw_append_status (f : BitVec 32) :
    ((f.extractLsb' 24 8 ++ f.extractLsb' 16 8) ++ (f.extractLsb' 8 8).extractLsb' 3 5) ++
      (f.extractLsb' 8 8).extractLsb' 0 3 = f.extractLsb' 8 24 := by
  have raw : (f.extractLsb' 8 8).extractLsb' 3 5 = f.extractLsb' 11 5 := extractLsb'_extractLsb' f (by decide)
  have status : (f.extractLsb' 8 8).extractLsb' 0 3 = f.extractLsb' 8 3 := extractLsb'_extractLsb' f (by decide)
  rw [raw, status, BitVec.extractLsb'_append_extractLsb'_eq_extractLsb' (show 24 = 16 + 8 from rfl),
    BitVec.extractLsb'_append_extractLsb'_eq_extractLsb' (show 16 = 11 + 5 from rfl),
    BitVec.extractLsb'_append_extractLsb'_eq_extractLsb' (show 11 = 8 + 3 from rfl)]

theorem frameValid_iff (f : BitVec 32) : frameValid f = true ↔ f.extractLsb' 0 8 = crc8 (f.extractLsb' 8 24) := by
  rw [frameValid, assemble, raw_append_status]
  exact decide_eq_true_iff

/-- Settles O32: after the payload the register holds its CRC, and the last byte takes that to 0 exactly when it equals
it. -/
theorem crcResidue : Obligations.CrcResidue := by
  refine ⟨fun p => ?_, fun f => ?_⟩
  · rw [crcLoop_append, crcLoop_byte_eq_zero_iff, crc8_eq]
  · rw [frameValid_iff, bitsMsb_frame, crcLoop_append, crcLoop_byte_eq_zero_iff, ← crc8_eq, eq_comm]

/-! Errors (R136): an error is a vector added to a valid frame, and whether it is detected depends on the error alone. -/

theorem frameValid_xor {f e : BitVec 32} (hf : frameValid f = true) (he : crcLoop 0 (bitsMsb e 32) ≠ 0) :
    frameValid (f ^^^ e) = false := by
  obtain ⟨-, residue⟩ := crcResidue
  rw [← Bool.not_eq_true, residue, crcLoop_zero_xor, (residue f).1 hf]
  exact fun h => he (BitVec.zero_xor.symm.trans h)

/-- An error confined to m bits is detected at any place if the loop over those m bits alone does not end at 0: only
zeros stand before and after them. -/
theorem frameValid_xor_shiftLeft {f e : BitVec 32} {m k : Nat} (hf : frameValid f = true) (he : e >>> m = 0#32)
    (hk : m + k ≤ 32) (h : crcLoop 0 (bitsMsb e m) ≠ 0) : frameValid (f ^^^ e <<< k) = false := by
  obtain ⟨n, hn⟩ : ∃ n, n + m + k = 32 := ⟨32 - m - k, by omega⟩
  have bits := bitsMsb_shiftLeft e hn.le
  rw [hn, bitsMsb_add, he, bitsMsb_zero] at bits
  apply frameValid_xor hf
  rwa [bits, crcLoop_append, crcLoop_append, crcLoop_zeros, Ne, crcLoop_zeros_eq_zero_iff]

theorem twoPow_xor_twoPow (j d : Nat) :
    BitVec.twoPow 32 j ^^^ BitVec.twoPow 32 (j + d) = (1#32 ^^^ BitVec.twoPow 32 d) <<< j := by
  rw [BitVec.shiftLeft_xor_distrib, BitVec.twoPow, BitVec.twoPow, BitVec.twoPow, ← BitVec.shiftLeft_add, Nat.add_comm]

theorem one_xor_twoPow_ushiftRight : ∀ d < 32, (1#32 ^^^ BitVec.twoPow 32 d) >>> (d + 1) = 0#32 := by decide

/-- The polynomial of R131 divides no x^d + 1 with 0 < d < 32: the order of x is above the span of a frame (R136). -/
theorem crcLoop_one_xor_twoPow_ne_zero :
    ∀ d < 32, 0 < d → crcLoop 0 (bitsMsb (1#32 ^^^ BitVec.twoPow 32 d) (d + 1)) ≠ 0 := by decide

theorem setWidth_ushiftRight (e : Byte) : e.setWidth 32 >>> 8 = 0#32 := by
  ext i hi
  simp

theorem crcLoop_setWidth (e : Byte) : crcLoop 0 (bitsMsb (e.setWidth 32) 8) = crcTable e := by
  have bits : bitsMsb (e.setWidth 32) 8 = bitsMsb e 8 := bitsMsb_congr fun i hi => by simp [show i < 32 by omega]
  rw [bits, crcTable]

/-- Settles O33: each error, moved to the low end of the frame, is one bit, two bits with bit 0 among them, or one
byte. -/
theorem crcDetectsErrors : Obligations.CrcDetectsErrors := by
  intro f hf
  refine ⟨fun j hj => ?_, fun j k hjk hk => ?_, fun e k he hk => ?_⟩
  · exact frameValid_xor_shiftLeft (e := 1#32) (m := 1) hf rfl (by omega) (by decide)
  · obtain ⟨d, rfl⟩ := Nat.exists_eq_add_of_le hjk.le
    rw [BitVec.xor_assoc, twoPow_xor_twoPow]
    exact frameValid_xor_shiftLeft hf (one_xor_twoPow_ushiftRight d (by omega)) (by omega)
      (crcLoop_one_xor_twoPow_ne_zero d (by omega) (by omega))
  · refine frameValid_xor_shiftLeft hf (setWidth_ushiftRight e) (by omega) ?_
    rwa [crcLoop_setWidth, Ne, crcTable_eq_zero_iff]

/-- Settles O28: CRC8 ends by its answer, in every state with no fault. -/
theorem crc8Answers : Obligations.Crc8Answers :=
  fun _ _ hf => ⟨exec_running hf _, by decide⟩

end Sys2Proof.Proofs
end

section
/-! crc8 in algebraic form: the loop of R130 divides by x⁸+x²+x+1 over GF(2), and its register is the remainder (41_crc8.md
rule R131). -/

namespace Sys2Proof.Proofs

open Sys2Proof.Machine Polynomial

/-! Bits as polynomials. -/

/-- The polynomial over GF(2) of n bits, bit k the coefficient of x^k. -/
noncomputable def bitPoly (n : Nat) (bit : Nat → Bool) : (ZMod 2)[X] :=
  ∑ k ∈ Finset.range n, if bit k then X ^ k else 0

/-- One bit as a constant polynomial. -/
noncomputable def bitConst (b : Bool) : (ZMod 2)[X] := if b then 1 else 0

theorem bitPoly_zero (bit : Nat → Bool) : bitPoly 0 bit = 0 := Finset.sum_range_zero _

theorem bitPoly_succ (n : Nat) (bit : Nat → Bool) : bitPoly (n + 1) bit = bitPoly n bit + X ^ n * bitConst (bit n) := by
  rw [bitPoly, Finset.sum_range_succ, bitConst, mul_ite, mul_one, mul_zero, bitPoly]

theorem bitPoly_zero_byte (n : Nat) : bitPoly n (0 : Byte).getLsbD = 0 :=
  Finset.sum_eq_zero fun k _ => by simp

theorem degree_bitPoly_lt (n : Nat) (bit : Nat → Bool) : (bitPoly n bit).degree < n := by
  rw [← mem_degreeLT]
  refine Submodule.sum_mem _ fun k hk => ?_
  rw [mem_degreeLT]
  split
  · rw [degree_X_pow]
    exact_mod_cast Finset.mem_range.1 hk
  · rw [degree_zero]
    exact WithBot.bot_lt_coe n

theorem bitConst_xor (a b : Bool) : bitConst (a ^^ b) = bitConst a + bitConst b := by
  cases a <;> cases b <;> simp [bitConst, CharTwo.add_self_eq_zero]

theorem bitPoly_xor {w : Nat} (n : Nat) (v u : BitVec w) :
    bitPoly n (v ^^^ u).getLsbD = bitPoly n v.getLsbD + bitPoly n u.getLsbD := by
  induction n with
  | zero => rw [bitPoly_zero, bitPoly_zero, bitPoly_zero, add_zero]
  | succ n ih =>
    rw [bitPoly_succ, bitPoly_succ, bitPoly_succ, ih, BitVec.getLsbD_xor, bitConst_xor]
    ring

theorem bitPoly_ite (n : Nat) (b : Bool) (v : Byte) :
    bitPoly n (if b then v else 0).getLsbD = bitPoly n v.getLsbD * bitConst b := by
  cases b <;> simp [bitConst, bitPoly]

/-- Multiplication by x shifts the register, and what the shift drops is its highest bit. -/
theorem X_mul_bitPoly (c : Byte) :
    X * bitPoly 8 c.getLsbD = bitPoly 8 (c <<< 1).getLsbD + X ^ 8 * bitConst c.msb := by
  simp [bitPoly, Finset.sum_range_succ, bitConst, BitVec.msb_eq_getLsbD_last, mul_add, pow_succ']

/-! The generator (R131). -/

/-- x⁸+x²+x+1. -/
noncomputable def crcGenerator : (ZMod 2)[X] := X ^ 8 + X ^ 2 + X + 1

theorem X_pow_eight_add_crcPoly : X ^ 8 + bitPoly 8 Config.crcPoly.getLsbD = crcGenerator := by
  simp [bitPoly, Finset.sum_range_succ, Config.crcPoly, crcGenerator, add_assoc, add_comm]

theorem monic_crcGenerator : crcGenerator.Monic := by
  rw [← X_pow_eight_add_crcPoly]
  exact monic_X_pow_add (degree_bitPoly_lt 8 _)

theorem degree_crcGenerator : crcGenerator.degree = 8 := by
  rw [crcGenerator]
  compute_degree!

/-! The division. -/

/-- One pass of the loop: the register times x, with the bit that enters at x⁸, less the generator when the feedback bit
is set. -/
theorem crcStep_division (c : Byte) (b : Bool) :
    X * bitPoly 8 c.getLsbD + X ^ 8 * bitConst b =
      bitPoly 8 (crcStep c b).getLsbD + crcGenerator * bitConst (c.msb ^^ b) := by
  rw [crcStep, bitPoly_xor, bitPoly_ite, ← X_pow_eight_add_crcPoly, X_mul_bitPoly, bitConst_xor]
  linear_combination -CharTwo.add_self_eq_zero (bitPoly 8 Config.crcPoly.getLsbD * (bitConst c.msb + bitConst b))

theorem crcLoop_division {w : Nat} (v : BitVec w) (n : Nat) : ∀ c : Byte, ∃ q,
    X ^ n * bitPoly 8 c.getLsbD + bitPoly n v.getLsbD * X ^ 8 =
      bitPoly 8 (crcLoop c (bitsMsb v n)).getLsbD + crcGenerator * q := by
  induction n with
  | zero => exact fun c => ⟨0, by simp [bitPoly_zero, bitsMsb, crcLoop]⟩
  | succ n ih =>
    intro c
    have loop : crcLoop c (bitsMsb v (n + 1)) = crcLoop (crcStep c (v.getLsbD n)) (bitsMsb v n) := rfl
    obtain ⟨q, hq⟩ := ih (crcStep c (v.getLsbD n))
    refine ⟨q + X ^ n * bitConst (c.msb ^^ v.getLsbD n), ?_⟩
    rw [bitPoly_succ n, loop]
    linear_combination hq + X ^ n * crcStep_division c (v.getLsbD n)

theorem payload_modByMonic (p : Payload) :
    (bitPoly 24 p.getLsbD * X ^ 8) %ₘ crcGenerator = bitPoly 8 (crc8 p).getLsbD := by
  obtain ⟨q, hq⟩ := crcLoop_division p 24 0
  rw [bitPoly_zero_byte, mul_zero, zero_add, ← crc8_eq] at hq
  have degree : (bitPoly 8 (crc8 p).getLsbD).degree < crcGenerator.degree := by
    rw [degree_crcGenerator]
    exact degree_bitPoly_lt 8 _
  obtain ⟨-, remainder⟩ := div_modByMonic_unique q _ monic_crcGenerator ⟨hq.symm, degree⟩
  exact remainder

/-- Settles O31: the register after the loop is the remainder, being of degree below 8. -/
theorem crcIsPolynomialRemainder : Obligations.CrcIsPolynomialRemainder :=
  ⟨payload_modByMonic, X_pow_eight_add_crcPoly⟩

end Sys2Proof.Proofs
end

section
/-! The angle requests that only compute: ASSEMBLE, CONVERT, STATUS_FLAGS and CAL_DECODE, the laws of convert and the
source's AngleSample (42_angle.md rules R150 to R163). -/

namespace Sys2Proof.Proofs

open Sys2Proof.Machine Sys2Proof.Safety Sys2Proof.Laws

/-! Convert (R154). -/

/-- The product with 45 needs 27 bits at most, so nothing of it is lost. -/
theorem convert_toNat (raw : Raw) : (convert raw).toNat = raw.toNat * 45 := by
  have hraw := raw.isLt
  exact Nat.mod_eq_of_lt (by omega)

/-- Settles O35: the answer is the product, whatever ANGLE_FLOAT is. -/
theorem convertAnswers : Obligations.ConvertAnswers :=
  fun raw _ hf => ⟨convert raw, convert_toNat raw, exec_running hf _⟩

/-! Assemble (R150). -/

theorem toNat_append_add {m n : Nat} (x : BitVec m) (y : BitVec n) :
    (x ++ y).toNat = x.toNat * 2 ^ n + y.toNat := by
  rw [BitVec.toNat_append, ← Nat.shiftLeft_add_eq_or_of_lt y.isLt, Nat.shiftLeft_eq]

theorem assemble_raw_toNat (b0 b1 b2 b3 : Byte) :
    (assemble b0 b1 b2 b3).raw.toNat = b0.toNat * 8192 + b1.toNat * 32 + b2.toNat / 8 := by
  have hb2 := b2.isLt
  simp only [assemble, toNat_append_add, BitVec.extractLsb'_toNat, Nat.shiftRight_eq_div_pow]
  omega

theorem assemble_status_toNat (b0 b1 b2 b3 : Byte) : (assemble b0 b1 b2 b3).status.toNat = b2.toNat % 8 :=
  BitVec.extractLsb'_toNat 0 3 b2

/-- The CRC runs over {B0, B1, B2}: raw and status hold all the bits of the three bytes. -/
theorem assemble_crcCalc (b0 b1 b2 b3 : Byte) :
    (assemble b0 b1 b2 b3).crcCalc = crc8 (BitVec.ofNat 24 (b0.toNat * 65536 + b1.toNat * 256 + b2.toNat)) := by
  have payload : (assemble b0 b1 b2 b3).raw ++ (assemble b0 b1 b2 b3).status =
      BitVec.ofNat 24 (b0.toNat * 65536 + b1.toNat * 256 + b2.toNat) := by
    have hb0 := b0.isLt
    have hb1 := b1.isLt
    have hb2 := b2.isLt
    apply BitVec.eq_of_toNat_eq
    rw [toNat_append_add, assemble_raw_toNat, assemble_status_toNat, BitVec.toNat_ofNat]
    omega
  exact congrArg crc8 payload

/-- Settles O34: the answer is the Sample of the bytes, field by field. -/
theorem assembleAnswers : Obligations.AssembleAnswers :=
  fun b0 b1 b2 b3 _ hf => ⟨assemble b0 b1 b2 b3, exec_running hf _, assemble_raw_toNat b0 b1 b2 b3,
    assemble_status_toNat b0 b1 b2 b3, rfl, assemble_crcCalc b0 b1 b2 b3, decide_eq_true_iff, convert_toNat _⟩

/-! The degrees of a raw angle (R155). -/

/-- The degrees that deg_q of a raw angle stands for. -/
def degrees (raw : Raw) : ℚ := ((convert raw).toNat : ℚ) / 2 ^ 18

theorem degrees_eq (raw : Raw) : degrees raw = raw.toNat * (45 / 2 ^ 18) := by
  rw [degrees, convert_toNat]
  push_cast
  ring

theorem degrees_lt {a b : Raw} (h : a.toNat < b.toNat) : degrees a < degrees b := by
  rw [degrees_eq, degrees_eq]
  have hq : (a.toNat : ℚ) < b.toNat := by exact_mod_cast h
  linarith

theorem degrees_succ {a b : Raw} (h : b.toNat = a.toNat + 1) : degrees b - degrees a = 45 / 2 ^ 18 := by
  rw [degrees_eq, degrees_eq, h]
  push_cast
  ring

theorem degrees_nonneg (raw : Raw) : 0 ≤ degrees raw := by
  rw [degrees_eq]
  positivity

/-- The largest raw angle is one step below a full turn. -/
theorem degrees_le (raw : Raw) : degrees raw ≤ 360 - 45 / 2 ^ 18 := by
  have hraw : (raw.toNat : ℚ) + 1 ≤ 2 ^ 21 := by exact_mod_cast raw.isLt
  rw [degrees_eq]
  linarith

/-- The integer part and the fraction of UQ9.18. -/
theorem degrees_split (raw : Raw) :
    degrees raw = ((convert raw).extractLsb' 18 9).toNat + (((convert raw).extractLsb' 0 18).toNat : ℚ) / 2 ^ 18 := by
  have split : (convert raw).toNat =
      ((convert raw).extractLsb' 18 9).toNat * 2 ^ 18 + ((convert raw).extractLsb' 0 18).toNat := by
    have := (convert raw).isLt
    simp only [BitVec.extractLsb'_toNat, Nat.shiftRight_eq_div_pow]
    omega
  rw [degrees, split]
  push_cast
  ring

theorem integerPart_le (raw : Raw) : ((convert raw).extractLsb' 18 9).toNat ≤ 359 := by
  have hraw := raw.isLt
  rw [BitVec.extractLsb'_toNat, convert_toNat, Nat.shiftRight_eq_div_pow]
  exact (Nat.mod_le _ _).trans (by omega)

theorem degrees_eighth {k : Nat} (h : k ≤ 7) : degrees (BitVec.ofNat 21 (k * 2 ^ 18)) = 45 * k := by
  rw [degrees_eq, BitVec.toNat_ofNat, Nat.mod_eq_of_lt (by omega)]
  push_cast
  ring

/-- Settles O36, law by law. -/
theorem convertLaws : Obligations.ConvertLaws := by
  refine ⟨fun raw => (convert_toNat raw).trans (Nat.mul_comm _ _), fun a b => degrees_lt,
    fun raw => ⟨degrees_nonneg raw, (degrees_le raw).trans_lt (by norm_num), degrees_le raw⟩, ?_,
    fun a b h => (degrees_succ h).trans (by norm_num),
    fun raw => ⟨integerPart_le raw, degrees_split raw⟩, fun k => degrees_eighth⟩
  have largest : degrees 0x1FFFFF = 0x1FFFFF * (45 / 2 ^ 18) := degrees_eq 0x1FFFFF
  exact largest.trans (by norm_num)

/-! Fields by their bits (R157, R159, R163). -/

theorem statusFlagsOf_ofNat : ∀ uv weak fast : Bool,
    statusFlagsOf (BitVec.ofNat 3 (4 * uv.toNat + 2 * weak.toNat + fast.toNat)) =
      { undervoltage := uv, weakField := weak, overspeed := fast } := by decide

/-- Settles O39: STATUS_FLAGS answers the flags of its operand. -/
theorem statusFlagsAnswers : Obligations.StatusFlagsAnswers := by
  intro uv weak fast s hf
  rw [← statusFlagsOf_ofNat uv weak fast]
  exact exec_running hf _

/-- Bits [7:6] name the quarter of the byte's range. -/
theorem calStateOf_iff (v : Byte) :
    (calStateOf v = .notRun ↔ v.toNat < 64) ∧
    (calStateOf v = .inProgress ↔ 64 ≤ v.toNat ∧ v.toNat < 128) ∧
    (calStateOf v = .failed ↔ 128 ≤ v.toNat ∧ v.toNat < 192) ∧
    (calStateOf v = .succeeded ↔ 192 ≤ v.toNat) := by
  have hv := v.isLt
  have field : (v.extractLsb' 6 2).toNat = v.toNat / 64 := by
    rw [BitVec.extractLsb'_toNat, Nat.shiftRight_eq_div_pow]
    omega
  unfold calStateOf
  split <;> simp only [reduceCtorEq, true_iff, false_iff]
  case h_4 hnotRun hinProgress hfailed =>
    rw [imp_false] at hnotRun hinProgress hfailed
    omega
  all_goals omega

/-- Settles O40: CAL_DECODE answers the state of its operand. -/
theorem calDecodeAnswers : Obligations.CalDecodeAnswers :=
  fun v _ hf => ⟨calStateOf v, exec_running hf _, calStateOf_iff v⟩

/-- Settles O55, format by format. -/
theorem angleSampleMapsSample : Obligations.AngleSampleMapsSample := by
  intro fmt smp
  refine ⟨rfl, rfl, rfl, ?_, fun hfmt => ?_⟩
  · rintro rfl
    rfl
  · cases fmt with
    | none => exact absurd rfl hfmt
    | binary32 => exact .inl ⟨_, rfl, rfl⟩
    | binary64 => exact .inr ⟨_, rfl, rfl⟩

end Sys2Proof.Proofs
end

section
/-! READ_ANGLE and the group of the stream: frames that are whole, then all done or one that fails (42_angle.md rules
R164 to R167). -/

namespace Sys2Proof.Proofs

open Sys2Proof.Machine Sys2Proof.Safety Sys2Proof.Laws

/-! READ_BYTE frames in a row, the first ones whole. -/

/-- The events of n whole three-slot frames with out-bytes `outs j` that receive `ins`. -/
def wholeFrames (outs : Nat → List Byte) (n : Nat) (ins : List Byte) : List BusEvent :=
  (List.range n).flatMap fun j => frameEvents (outs j) ((ins.drop (3 * j)).take 3)

/-- The in-bytes of slot 2 of n whole frames. -/
def slotTwos (n : Nat) (ins : List Byte) : List Byte := (List.range n).map fun j => ins.getD (3 * j + 2) 0

theorem wholeFrames_succ (outs : Nat → List Byte) (n : Nat) (i0 i1 i2 : Byte) (ins : List Byte) :
    wholeFrames outs (n + 1) (i0 :: i1 :: i2 :: ins) =
      frameEvents (outs 0) [i0, i1, i2] ++ wholeFrames (fun j => outs (j + 1)) n ins := by
  simp [wholeFrames, List.range_succ_eq_map, List.flatMap_map, Nat.mul_add]

theorem slotTwos_succ (n : Nat) (i0 i1 i2 : Byte) (ins : List Byte) :
    slotTwos (n + 1) (i0 :: i1 :: i2 :: ins) = i2 :: slotTwos n ins := by
  simp [slotTwos, List.range_succ_eq_map, Nat.mul_add]

/-- Reading registers the first of which are answered: what is left is to read the rest of them. -/
theorem readRegs_answered (regs : List RegAddr) : ∀ {s : State} {outs : Nat → List Byte} {ins : List Byte},
    (∀ j (hj : j < regs.length), outs j = outBytes .readByte (regs[j].setWidth 16) 0) →
    (∀ k (hk : k < ins.length), s.slotAnswer k = .byte ins[k]) → 3 * regs.length ≤ ins.length → ∀ rest,
    s.readRegs (regs ++ rest) =
      (afterBytes (slotTwos regs.length ins)
          (((s.skipSlots (3 * regs.length)).emit (wholeFrames outs regs.length ins)).readRegs rest).1,
        (((s.skipSlots (3 * regs.length)).emit (wholeFrames outs regs.length ins)).readRegs rest).2) := by
  induction regs with
  | nil => intro s outs ins _ _ _ rest; simp [slotTwos, wholeFrames, afterBytes]
  | cons a regs ih =>
    intro s outs ins houts hans hle rest
    obtain ⟨i0, i1, i2, more, rfl⟩ : ∃ i0 i1 i2 more, ins = i0 :: i1 :: i2 :: more := by
      match ins, hle with
      | i0 :: i1 :: i2 :: more, _ => exact ⟨i0, i1, i2, more, rfl⟩
    obtain ⟨o0, o1, o2, hthree⟩ : ∃ o0 o1 o2, outBytes .readByte (a.setWidth 16) 0 = [o0, o1, o2] := ⟨_, _, _, rfl⟩
    have hout : outs 0 = [o0, o1, o2] := (houts 0 (by simp)).trans hthree
    have whole : s.frame (outBytes .readByte (a.setWidth 16) 0) =
        (.bytes [i0, i1, i2], (s.skipSlots 3).emit (frameEvents (outs 0) [i0, i1, i2])) := by
      rw [hthree, hout]
      exact frame_three (hans 0 (by simp)) (hans 1 (by simp)) (hans 2 (by simp)) o0 o1 o2
    have next (k : Nat) (hk : k < more.length) :
        ((s.skipSlots 3).emit (frameEvents (outs 0) [i0, i1, i2])).slotAnswer k = .byte more[k] := by
      rw [slotAnswer_emit, slotAnswer_skipSlots, Nat.add_comm]
      exact hans (k + 3) (by simpa using hk)
    have count : 3 + 3 * regs.length = 3 * (regs.length + 1) := by omega
    rw [List.cons_append, readRegs_bytes whole, List.length_cons, slotTwos_succ, wholeFrames_succ,
      ih (fun j hj => houts (j + 1) (by simpa using hj)) next (by simp at hle; omega) rest, skipSlots_emit,
      skipSlots_skipSlots, emit_emit, count]
    rfl

/-! The four frames of READ_ANGLE (R166). -/

theorem angleOuts_eq : ∀ j (hj : j < Config.angleRegs.length),
    angleOuts j = outBytes .readByte (Config.angleRegs[j].setWidth 16) 0 := by decide

/-- Settles O41: the four frames are whole, and nothing is left to read. -/
theorem readAngleCompletes : Obligations.ReadAngleCompletes := by
  intro x0 x1 b0 y0 y1 b1 z0 z1 b2 w0 w1 b3 s hf ha hl hans
  have read := readRegs_answered Config.angleRegs angleOuts_eq (answered_getElem hans) le_rfl []
  rw [exec_running hf]
  simp only [body]
  rw [openBus_free ha hl, ← List.append_nil Config.angleRegs, read]
  rfl

/-- Failing after slots the first k of which have been answered. -/
theorem failsAfter_drop {s : State} {ins : List Byte} (h : FailsAfter s ins) {k : Nat} (hk : k ≤ ins.length)
    (es : List BusEvent) : FailsAfter ((s.skipSlots k).emit es) (ins.drop k) := by
  obtain ⟨hbytes, hfails⟩ := h
  refine ⟨fun j hj => ?_, ?_⟩
  · rw [slotAnswer_emit, slotAnswer_skipSlots, List.getElem_drop]
    exact hbytes (k + j) (by simp at hj; omega)
  · rw [slotAnswer_emit, slotAnswer_skipSlots, List.length_drop, Nat.add_sub_cancel' hk]
    exact hfails

/-- Reading registers one of whose slots fails: the frames before its own are whole, and no later one is sent. -/
theorem readRegs_fails {regs : List RegAddr} {s : State} {outs : Nat → List Byte} {ins : List Byte}
    (houts : ∀ j (hj : j < regs.length), outs j = outBytes .readByte (regs[j].setWidth 16) 0)
    (h : FailsAfter s ins) (hlt : ins.length < 3 * regs.length) :
    s.readRegs regs = (.busError, (s.skipSlots (ins.length + 1)).emit
      (framesEvents outs ins ++ [.xchgError ((outs (ins.length / 3)).getD (ins.length % 3) 0), .csDeassert])) := by
  have hk : ins.length / 3 < regs.length := by omega
  have hfirst : (regs.take (ins.length / 3)).length = ins.length / 3 := List.length_take_of_le hk.le
  have hrest : (ins.drop (3 * (ins.length / 3))).length = ins.length % 3 := by rw [List.length_drop]; omega
  have answered := readRegs_answered (regs.take (ins.length / 3)) (outs := outs)
    (fun j hj => by simpa using houts j (by omega)) h.1 (by omega) (regs.drop (ins.length / 3))
  rw [List.take_append_drop, List.drop_eq_getElem_cons hk, hfirst] at answered
  have failing := frame_fails (outs := outs (ins.length / 3)) (failsAfter_drop h (k := 3 * (ins.length / 3)) (by omega)
    (wholeFrames outs (ins.length / 3) ins)) (by rw [houts _ hk]; simp [outBytes, header]; omega)
  have count : 3 * (ins.length / 3) + (ins.length % 3 + 1) = ins.length + 1 := by omega
  rw [hrest, skipSlots_emit, skipSlots_skipSlots, count, emit_emit, houts _ hk] at failing
  rw [answered, readRegs_busError failing, afterBytes_busError, ← houts _ hk]
  simp [framesEvents, wholeFrames, xchgEvents]

/-- Settles O42: the slot that fails is in the frame after the whole ones. -/
theorem readAngleAbortsOnBusError : Obligations.ReadAngleAbortsOnBusError := by
  intro ins s hf ha hl hlt hans he
  have read := readRegs_fails angleOuts_eq ⟨answered_getElem hans, he⟩ hlt
  rw [exec_running hf]
  simp only [body]
  rw [openBus_free ha hl, read]
  simp [State.emit, State.answer, State.respond, framesEvents]

/-! A group of the stream (R167, R188). -/

/-- The stream once its next slot has been answered with the byte r, and the aligner has taken it. -/
def takeSlotByte (s : State) (r : Byte) : State := ((s.skipSlots 1).emit [.xchg Config.dummyByte r]).takeGroupByte r

theorem exec_streamByte_byte {s : State} (hf : s.fault = false) (ha : s.strmActive = true) {r : Byte}
    (hr : s.slotAnswer 0 = .byte r) : exec .streamByte s = .next (takeSlotByte s r) :=
  (exec_running hf _).trans (congrArg _ (streamByte_byte ha hr))

/-- A byte taken is answered OK, and leaves an open stream and the bus's later answers. -/
theorem takeSlotByte_frame (s : State) (r : Byte) :
    (takeSlotByte s r).fault = s.fault ∧ (takeSlotByte s r).strmActive = s.strmActive ∧
      (∀ k, (takeSlotByte s r).slotAnswer k = s.slotAnswer (1 + k)) ∧
      ∃ res, (takeSlotByte s r).responses = s.responses ++ [.status .ok res] := by
  simp only [← slotAnswer_skipSlots]
  unfold takeSlotByte State.takeGroupByte
  split <;> exact ⟨rfl, rfl, fun _ => rfl, _, rfl⟩

/-- STREAM_BYTE requests in a row whose slots are all answered. -/
theorem runRequests_streamByte_answered (ins : List Byte) : ∀ {s : State}, s.fault = false → s.strmActive = true →
    (∀ k (hk : k < ins.length), s.slotAnswer k = .byte ins[k]) →
    runRequests s (List.replicate ins.length .streamByte) = .next (ins.foldl takeSlotByte s) := by
  induction ins with
  | nil => exact fun _ _ _ => rfl
  | cons r ins ih =>
    intro s hf ha hans
    obtain ⟨hfault, hactive, hlater, res, hres⟩ := takeSlotByte_frame s r
    rw [List.length_cons, List.replicate_succ, runRequests_ok (exec_streamByte_byte hf ha (hans 0 (by simp))) hres]
    refine ih (hfault.trans hf) (hactive.trans ha) fun k hk => ?_
    rw [List.getElem_cons_zero, hlater, Nat.add_comm]
    exact hans (k + 1) (by simpa using hk)

/-- The four bytes of a group from its boundary: the fourth completes the Sample, and the next group begins. -/
theorem takeSlotByte_group {u : State} (hi : u.strmIdx = 0) (b0 b1 b2 b3 : Byte) :
    ([b0, b1, b2, b3].foldl takeSlotByte u).strmActive = u.strmActive ∧
      ([b0, b1, b2, b3].foldl takeSlotByte u).strmIdx = 0 ∧
      ([b0, b1, b2, b3].foldl takeSlotByte u).responses = u.responses ++
        [.status .ok .nothing, .status .ok .nothing, .status .ok .nothing,
         .status .ok (.sample (assemble b0 b1 b2 b3))] := by
  simp only [List.foldl, takeSlotByte]
  rw [takeGroupByte_first (by exact hi) b0, takeGroupByte_second (by rfl) b1, takeGroupByte_third (by rfl) b2,
    takeGroupByte_fourth (by rfl) b3]
  simp

/-- Settles O43: both requests end by assemble of the same bytes. -/
theorem streamMatchesSingleShot : Obligations.StreamMatchesSingleShot := by
  intro x0 x1 b0 y0 y1 b1 z0 z1 b2 w0 w1 b3 s u hf ha hl hans huf hua hui huans
  have single := readAngleCompletes x0 x1 b0 y0 y1 b1 z0 z1 b2 w0 w1 b3 s hf ha hl hans
  have group := runRequests_streamByte_answered [b0, b1, b2, b3] huf hua (answered_getElem huans)
  obtain ⟨hactive, hindex, hresp⟩ := takeSlotByte_group hui b0 b1 b2 b3
  exact ⟨_, _, single, rfl, (runPseudo_eq (by simp) u).trans group, hresp, hactive.trans hua, hindex⟩

end Sys2Proof.Proofs
end

section
/-! The float output of CONVERT: the fields of the bits, and the rounding of the significand (42_angle.md rule R156). -/

namespace Sys2Proof.Proofs

open Sys2Proof.Machine Sys2Proof.Safety

/-! Fields of an IEEE 754 number. -/

/-- The fields of a number written as exponent field e and fraction f, with sign 0. -/
theorem ieee_fields {x p e f : Nat} (he : e < 2 ^ x) (hf : f < 2 ^ p) :
    (BitVec.ofNat (x + p + 1) (e * 2 ^ p + f)).msb = false ∧
      ((BitVec.ofNat (x + p + 1) (e * 2 ^ p + f)).extractLsb' p x).toNat = e ∧
      ((BitVec.ofNat (x + p + 1) (e * 2 ^ p + f)).extractLsb' 0 p).toNat = f := by
  have fits : e * 2 ^ p + f < 2 ^ (x + p) := by
    calc e * 2 ^ p + f < (e + 1) * 2 ^ p := by rw [Nat.add_mul]; omega
      _ ≤ 2 ^ x * 2 ^ p := Nat.mul_le_mul_right _ he
      _ = 2 ^ (x + p) := (pow_add 2 x p).symm
  have value : (BitVec.ofNat (x + p + 1) (e * 2 ^ p + f)).toNat = e * 2 ^ p + f :=
    Nat.mod_eq_of_lt (fits.trans (Nat.pow_lt_pow_right (by decide) (Nat.lt_succ_self _)))
  refine ⟨?_, ?_, ?_⟩
  · rw [BitVec.msb_eq_false_iff_two_mul_lt, value, pow_succ]
    omega
  · rw [BitVec.extractLsb'_toNat, value, Nat.shiftRight_eq_div_pow, Nat.mul_comm, Nat.mul_add_div (Nat.two_pow_pos p),
      Nat.div_eq_of_lt hf, Nat.add_zero, Nat.mod_eq_of_lt he]
  · rw [BitVec.extractLsb'_toNat, value, Nat.shiftRight_zero, Nat.mul_comm, Nat.mul_add_mod, Nat.mod_eq_of_lt hf]

/-- A normal number: its significand is the fraction with the hidden bit, and a part c of the exponent field goes
against the bias. -/
theorem ieeeValue_normal {p bias c d e m : Nat} (he : 1 ≤ e + c) (hbias : bias + p = c + d) (hm : 2 ^ p ≤ m) :
    ieeeValue p bias false (e + c) (m - 2 ^ p) = m * 2 ^ e / 2 ^ d := by
  have hne : e + c ≠ 0 := Nat.ne_of_gt he
  have significand : (2 : ℚ) ^ p + ((m - 2 ^ p : Nat) : ℚ) = m := by exact_mod_cast Nat.add_sub_cancel' hm
  rw [ieeeValue, if_neg (by decide), if_neg hne, max_eq_left he, hbias, significand, pow_add, pow_add, one_mul]
  field_simp

/-! binary64 (R156). -/

/-- The bits b are those of the non-negative, finite binary64 number v. -/
def IsBinary64 (b : BitVec 64) (v : ℚ) : Prop := b.msb = false ∧ binary64Finite b = true ∧ binary64Value b = v

/-- The bits of m·2^e / 2^70, for a significand m with the hidden bit at 2^52. -/
def binary64Bits (e m : Nat) : BitVec 64 := BitVec.ofNat 64 ((e + 1005) * 2 ^ 52 + (m - 2 ^ 52))

theorem isBinary64_bits {e m : Nat} (he : e + 1005 < 2047) (hm : 2 ^ 52 ≤ m) (hm' : m < 2 ^ 53) :
    IsBinary64 (binary64Bits e m) (m * 2 ^ e / 2 ^ 70) := by
  obtain ⟨sign, exponent, fraction⟩ :=
    ieee_fields (x := 11) (p := 52) (e := e + 1005) (f := m - 2 ^ 52) (by omega) (by omega)
  refine ⟨sign, bne_iff_ne.2 fun h => ?_, ?_⟩
  · have special : e + 1005 = 2047 := exponent.symm.trans (congrArg BitVec.toNat h)
    omega
  · rw [binary64Value, binary64Bits, sign, exponent, fraction,
      ieeeValue_normal (d := 70) (by omega) (by norm_num) hm]

/-- A number moved up so that its highest bit is bit p. -/
theorem normalized_bounds {n p : Nat} (hn : n ≠ 0) (h : n.log2 ≤ p) :
    2 ^ p ≤ n * 2 ^ (p - n.log2) ∧ n * 2 ^ (p - n.log2) < 2 ^ (p + 1) := by
  have hp : p = n.log2 + (p - n.log2) := by omega
  have hp' : p + 1 = n.log2 + 1 + (p - n.log2) := by omega
  constructor
  · calc 2 ^ p = 2 ^ n.log2 * 2 ^ (p - n.log2) := by rw [← pow_add, ← hp]
      _ ≤ n * 2 ^ (p - n.log2) := Nat.mul_le_mul_right _ (Nat.log2_self_le hn)
  · calc n * 2 ^ (p - n.log2) < 2 ^ (n.log2 + 1) * 2 ^ (p - n.log2) :=
          Nat.mul_lt_mul_of_pos_right Nat.lt_log2_self (Nat.two_pow_pos _)
      _ = 2 ^ (p + 1) := by rw [← pow_add, ← hp']

theorem two_pow_sub_log2 {n p : Nat} (h : n.log2 ≤ p) : (2 : ℚ) ^ (p - n.log2) * 2 ^ n.log2 = 2 ^ p := by
  rw [← pow_add, Nat.sub_add_cancel h]

theorem isBinary64_zero : IsBinary64 (binary64Of 0) 0 := ⟨rfl, rfl, by simp [binary64Of, binary64Value, ieeeValue]⟩

theorem binary64Of_eq {n : Nat} (hn : n ≠ 0) (h : n.log2 ≤ 52) :
    binary64Of n = binary64Bits n.log2 (n * 2 ^ (52 - n.log2)) := by
  rw [binary64Of, binary64Bits, if_neg hn, Nat.sub_mul, ← pow_add, Nat.add_sub_cancel' h]

/-- The binary64 of n is n / 2^18, with nothing rounded. -/
theorem isBinary64_binary64Of {n : Nat} (h : n < 2 ^ 53) : IsBinary64 (binary64Of n) (n / 2 ^ 18) := by
  rcases eq_or_ne n 0 with rfl | hn
  · simpa using isBinary64_zero
  have hlog : n.log2 ≤ 52 := Nat.le_of_lt_succ ((Nat.log2_lt hn).2 h)
  obtain ⟨low, high⟩ := normalized_bounds hn hlog
  have value : ((n * 2 ^ (52 - n.log2) : Nat) : ℚ) * 2 ^ n.log2 / 2 ^ 70 = n / 2 ^ 18 := by
    push_cast
    rw [mul_assoc, two_pow_sub_log2 hlog]
    ring
  rw [binary64Of_eq hn hlog, ← value]
  exact isBinary64_bits (by omega) low high

/-- deg_q of a raw angle is below 2^27. -/
theorem raw_mul_lt (raw : Raw) : raw.toNat * 45 < 2 ^ 27 := by
  have := raw.isLt
  omega

/-- Settles O37: 27 bits fit the 53 of a binary64 significand. -/
theorem floatOutBinary64IsExact : Obligations.FloatOutBinary64IsExact := by
  intro raw
  obtain ⟨sign, finite, value⟩ := isBinary64_binary64Of ((raw_mul_lt raw).trans (by norm_num))
  exact ⟨rfl, _, rfl, sign, finite, by rw [value, convert_toNat]⟩

/-! Rounding to a multiple. -/

/-- How far a·d is from n. -/
def gridDistance (n d a : Nat) : Nat := (((a * d : Nat) : ℤ) - n).natAbs

/-- No multiple is nearer than that of the quotient when the remainder is at most half. -/
theorem gridDistance_quotient {d q m a : Nat} (hm : 2 * m ≤ d) (hd : 0 < d) (ha : a ≠ q) :
    gridDistance (q * d + m) d q < gridDistance (q * d + m) d a ∨
      gridDistance (q * d + m) d q = gridDistance (q * d + m) d a ∧ 2 * m = d := by
  unfold gridDistance
  rcases Nat.lt_or_gt_of_ne ha with hlt | hgt
  · have below : (a + 1) * d ≤ q * d := Nat.mul_le_mul_right d hlt
    rw [Nat.succ_mul] at below
    omega
  · have above : (q + 1) * d ≤ a * d := Nat.mul_le_mul_right d hgt
    rw [Nat.succ_mul] at above
    omega

/-- No multiple is nearer than that above the quotient when the remainder is at least half. -/
theorem gridDistance_quotient_succ {d q m a : Nat} (hm : d ≤ 2 * m) (hmd : m < d) (ha : a ≠ q + 1) :
    gridDistance (q * d + m) d (q + 1) < gridDistance (q * d + m) d a ∨
      gridDistance (q * d + m) d (q + 1) = gridDistance (q * d + m) d a ∧ 2 * m = d := by
  unfold gridDistance
  have next : (q + 1) * d = q * d + d := Nat.succ_mul q d
  rcases Nat.lt_or_gt_of_ne ha with hlt | hgt
  · have below : a * d ≤ q * d := Nat.mul_le_mul_right d (by omega)
    omega
  · have above : (q + 1 + 1) * d ≤ a * d := Nat.mul_le_mul_right d hgt
    rw [Nat.succ_mul] at above
    omega

theorem roundShift_cases (n k : Nat) :
    (roundShift n k = n / 2 ^ k ∧
      (2 * (n % 2 ^ k) < 2 ^ k ∨ 2 * (n % 2 ^ k) = 2 ^ k ∧ n / 2 ^ k % 2 = 0)) ∨
    (roundShift n k = n / 2 ^ k + 1 ∧
      (2 ^ k < 2 * (n % 2 ^ k) ∨ 2 * (n % 2 ^ k) = 2 ^ k ∧ n / 2 ^ k % 2 = 1)) := by
  simp only [roundShift]
  split
  case isTrue h => exact .inr ⟨rfl, h⟩
  case isFalse h => exact .inl ⟨rfl, by omega⟩

/-- Rounding is to the nearest multiple of 2^k, and of two as near it is to the even one. -/
theorem roundShift_nearest {n k a : Nat} (h : a ≠ roundShift n k) :
    gridDistance n (2 ^ k) (roundShift n k) < gridDistance n (2 ^ k) a ∨
      gridDistance n (2 ^ k) (roundShift n k) = gridDistance n (2 ^ k) a ∧ roundShift n k % 2 = 0 := by
  have split : n / 2 ^ k * 2 ^ k + n % 2 ^ k = n := Nat.div_add_mod' n (2 ^ k)
  have rest : n % 2 ^ k < 2 ^ k := Nat.mod_lt n (Nat.two_pow_pos k)
  rcases roundShift_cases n k with ⟨hr, hround⟩ | ⟨hr, hround⟩ <;> rw [hr] at h ⊢
  · have near := gridDistance_quotient (m := n % 2 ^ k) (by omega) (Nat.two_pow_pos k) h
    rw [split] at near
    omega
  · have near := gridDistance_quotient_succ (m := n % 2 ^ k) (by omega) rest h
    rw [split] at near
    omega

theorem le_roundShift {n k a : Nat} (h : a * 2 ^ k ≤ n) : a ≤ roundShift n k := by
  have := (Nat.le_div_iff_mul_le (Nat.two_pow_pos k)).2 h
  rcases roundShift_cases n k with ⟨hr, -⟩ | ⟨hr, -⟩ <;> omega

theorem roundShift_le {n k a : Nat} (h : n < a * 2 ^ k) : roundShift n k ≤ a := by
  have := (Nat.div_lt_iff_lt_mul (Nat.two_pow_pos k)).2 h
  rcases roundShift_cases n k with ⟨hr, -⟩ | ⟨hr, -⟩ <;> omega

/-- The distance of two multiples of 2^-18. -/
theorem abs_sub_eq_gridDistance (n d a : Nat) :
    |(a * d / 2 ^ 18 - n / 2 ^ 18 : ℚ)| = gridDistance n d a / 2 ^ 18 := by
  rw [← sub_div, abs_div, abs_of_pos (show (0 : ℚ) < 2 ^ 18 by positivity), gridDistance, Nat.cast_natAbs]
  push_cast
  rfl

/-! binary32 (R156). -/

/-- The bits b are those of the non-negative, finite binary32 number v. -/
def IsBinary32 (b : BitVec 32) (v : ℚ) : Prop := b.msb = false ∧ binary32Finite b = true ∧ binary32Value b = v

/-- The bits of m·2^e / 2^41, for a significand m with the hidden bit at 2^23. -/
def binary32Bits (e m : Nat) : BitVec 32 := BitVec.ofNat 32 ((e + 109) * 2 ^ 23 + (m - 2 ^ 23))

theorem isBinary32_bits {e m : Nat} (he : e + 109 < 255) (hm : 2 ^ 23 ≤ m) (hm' : m < 2 ^ 24) :
    IsBinary32 (binary32Bits e m) (m * 2 ^ e / 2 ^ 41) := by
  obtain ⟨sign, exponent, fraction⟩ :=
    ieee_fields (x := 8) (p := 23) (e := e + 109) (f := m - 2 ^ 23) (by omega) (by omega)
  refine ⟨sign, bne_iff_ne.2 fun h => ?_, ?_⟩
  · have special : e + 109 = 255 := exponent.symm.trans (congrArg BitVec.toNat h)
    omega
  · rw [binary32Value, binary32Bits, sign, exponent, fraction,
      ieeeValue_normal (d := 41) (by omega) (by norm_num) hm]

/-- A significand rounded up to 2^24 carries into the exponent field. -/
theorem isBinary32_bits_carry {e m : Nat} (he : e + 109 < 254) (hm : 2 ^ 23 ≤ m) (hm' : m ≤ 2 ^ 24) :
    IsBinary32 (binary32Bits e m) (m * 2 ^ e / 2 ^ 41) := by
  rcases hm'.lt_or_eq with hlt | rfl
  · exact isBinary32_bits (by omega) hm hlt
  · have carry : binary32Bits e (2 ^ 24) = binary32Bits (e + 1) (2 ^ 23) :=
      congrArg (BitVec.ofNat 32) (by omega)
    have value : ((2 ^ 24 : Nat) : ℚ) * 2 ^ e / 2 ^ 41 = ((2 ^ 23 : Nat) : ℚ) * 2 ^ (e + 1) / 2 ^ 41 := by
      push_cast
      ring
    rw [carry, value]
    exact isBinary32_bits (by omega) le_rfl (by norm_num)

theorem binary32Bits_even {e m : Nat} (hm : 2 ^ 23 ≤ m) (heven : m % 2 = 0) :
    (binary32Bits e m).getLsbD 0 = false := by
  rw [binary32Bits, BitVec.getLsbD_ofNat, Nat.testBit_zero]
  simp only [Nat.zero_lt_succ, decide_true, Bool.true_and, decide_eq_false_iff_not]
  omega

/-- The significand of the binary32 nearest to n / 2^18. -/
def significand32 (n : Nat) : Nat :=
  if n.log2 ≤ 23 then n * 2 ^ (23 - n.log2) else roundShift n (n.log2 - 23)

theorem isBinary32_zero : IsBinary32 (binary32Of 0) 0 := ⟨rfl, rfl, by simp [binary32Of, binary32Value, ieeeValue]⟩

theorem binary32Of_eq {n : Nat} (hn : n ≠ 0) : binary32Of n = binary32Bits n.log2 (significand32 n) := if_neg hn

theorem two_pow_log2_split {n : Nat} (h : 23 ≤ n.log2) : 2 ^ 23 * 2 ^ (n.log2 - 23) = 2 ^ n.log2 := by
  rw [← pow_add, Nat.add_sub_cancel' h]

theorem significand32_bounds {n : Nat} (hn : n ≠ 0) : 2 ^ 23 ≤ significand32 n ∧ significand32 n ≤ 2 ^ 24 := by
  unfold significand32
  split
  case isTrue h =>
    obtain ⟨low, high⟩ := normalized_bounds hn h
    exact ⟨low, high.le⟩
  case isFalse h =>
    have split := two_pow_log2_split (n := n) (by omega)
    have low := Nat.log2_self_le hn
    have high : n < 2 ^ (n.log2 + 1) := Nat.lt_log2_self
    exact ⟨le_roundShift (by omega), roundShift_le (by rw [pow_succ] at high; omega)⟩

theorem isBinary32_significand32 {n : Nat} (hn : n ≠ 0) (h : n < 2 ^ 32) :
    IsBinary32 (binary32Of n) (significand32 n * 2 ^ n.log2 / 2 ^ 41) := by
  have hlog : n.log2 < 32 := (Nat.log2_lt hn).2 h
  obtain ⟨low, high⟩ := significand32_bounds hn
  rw [binary32Of_eq hn]
  exact isBinary32_bits_carry (by omega) low high

/-- Up to 24 bits fit the significand: nothing is rounded. -/
theorem isBinary32_exact {n : Nat} (h : n < 2 ^ 24) : IsBinary32 (binary32Of n) (n / 2 ^ 18) := by
  rcases eq_or_ne n 0 with rfl | hn
  · simpa using isBinary32_zero
  have hlog : n.log2 ≤ 23 := Nat.le_of_lt_succ ((Nat.log2_lt hn).2 h)
  have value : (significand32 n : ℚ) * 2 ^ n.log2 / 2 ^ 41 = n / 2 ^ 18 := by
    rw [significand32, if_pos hlog]
    push_cast
    rw [mul_assoc, two_pow_sub_log2 hlog]
    ring
  rw [← value]
  exact isBinary32_significand32 hn (h.trans (by norm_num))

/-- A number of more than 24 bits is rounded to a multiple of its last place. -/
theorem isBinary32_rounded {n : Nat} (h : 2 ^ 24 ≤ n) (h' : n < 2 ^ 32) :
    IsBinary32 (binary32Of n) (roundShift n (n.log2 - 23) * (2 ^ (n.log2 - 23) : Nat) / 2 ^ 18) := by
  have hn : n ≠ 0 := by omega
  have hlog : 24 ≤ n.log2 := (Nat.le_log2 hn).2 h
  have value : (significand32 n : ℚ) * 2 ^ n.log2 / 2 ^ 41 =
      roundShift n (n.log2 - 23) * (2 ^ (n.log2 - 23) : Nat) / 2 ^ 18 := by
    have split : (2 : ℚ) ^ n.log2 = 2 ^ 23 * 2 ^ (n.log2 - 23) := by
      exact_mod_cast (two_pow_log2_split (by omega)).symm
    rw [significand32, if_neg (by omega), split]
    push_cast
    ring
  rw [← value]
  exact isBinary32_significand32 hn h'

theorem binary32Value_eq (b : BitVec 32) : ∃ m x : Nat, m < 2 ^ 24 ∧
    binary32Value b = (if b.msb then -1 else 1) * (m * 2 ^ x / 2 ^ 150) := by
  have hf : (b.extractLsb' 0 23).toNat < 2 ^ 23 := (b.extractLsb' 0 23).isLt
  rcases eq_or_ne (b.extractLsb' 23 8).toNat 0 with he | he
  · exact ⟨(b.extractLsb' 0 23).toNat, 1, by omega, by rw [binary32Value, ieeeValue, if_pos he, he]; rfl⟩
  · refine ⟨2 ^ 23 + (b.extractLsb' 0 23).toNat, (b.extractLsb' 23 8).toNat, by omega, ?_⟩
    rw [binary32Value, ieeeValue, if_neg he, max_eq_left (by omega)]
    push_cast
    rfl

/-- From 2^e / 2^18 on, the binary32 numbers are multiples of 2^(e-23) / 2^18. -/
theorem binary32Value_multiple {b : BitVec 32} {e : Nat} (he : 23 ≤ e) (h : (2 : ℚ) ^ e / 2 ^ 18 ≤ binary32Value b) :
    ∃ a : Nat, binary32Value b = a * (2 ^ (e - 23) : Nat) / 2 ^ 18 := by
  obtain ⟨m, x, hm, value⟩ := binary32Value_eq b
  have hpos : (0 : ℚ) < 2 ^ e / 2 ^ 18 := by positivity
  have hmag : (0 : ℚ) ≤ m * 2 ^ x / 2 ^ 150 := by positivity
  have hsign : ¬ b.msb = true := by
    intro hsign
    rw [if_pos hsign] at value
    linarith
  rw [if_neg hsign, one_mul] at value
  have hx : e + 109 ≤ x := by
    have scaled : 2 ^ (e + 132) ≤ m * 2 ^ x := by
      rw [value, div_le_div_iff₀ (by positivity) (by positivity)] at h
      have h' : (2 : ℚ) ^ (e + 132) ≤ m * 2 ^ x := by
        rw [pow_add]
        linarith
      exact_mod_cast h'
    have bound : 2 ^ (e + 132) < 2 ^ (24 + x) := by
      rw [pow_add 2 24 x]
      exact scaled.trans_lt (Nat.mul_lt_mul_of_pos_right hm (Nat.two_pow_pos x))
    have := (Nat.pow_lt_pow_iff_right (by decide)).1 bound
    omega
  obtain ⟨y, rfl⟩ := Nat.exists_eq_add_of_le hx
  obtain ⟨k, rfl⟩ := Nat.exists_eq_add_of_le he
  refine ⟨m * 2 ^ y, ?_⟩
  rw [value, Nat.add_sub_cancel_left, pow_add, pow_add, pow_add]
  push_cast
  ring

/-- A number below the power of two at the highest bit of n is not as near to n as the rounded one. -/
theorem roundShift_near_of_lt {n : Nat} (h : 23 ≤ n.log2) (hn : n ≠ 0) {v : ℚ} (hv : v < 2 ^ n.log2 / 2 ^ 18) :
    (gridDistance n (2 ^ (n.log2 - 23)) (roundShift n (n.log2 - 23)) : ℚ) / 2 ^ 18 < |v - n / 2 ^ 18| := by
  have near : gridDistance n (2 ^ (n.log2 - 23)) (roundShift n (n.log2 - 23)) ≤
      gridDistance n (2 ^ (n.log2 - 23)) (2 ^ 23) := by
    rcases eq_or_ne (2 ^ 23) (roundShift n (n.log2 - 23)) with e | hne
    · rw [← e]
    · have := roundShift_nearest hne
      omega
  have power : gridDistance n (2 ^ (n.log2 - 23)) (2 ^ 23) + 2 ^ n.log2 = n := by
    have := Nat.log2_self_le hn
    rw [gridDistance, two_pow_log2_split h]
    omega
  have far : ((2 ^ n.log2 : Nat) : ℚ) + gridDistance n (2 ^ (n.log2 - 23)) (roundShift n (n.log2 - 23)) ≤ n := by
    exact_mod_cast (show _ ≤ n by omega)
  push_cast at far
  rw [lt_abs]
  right
  rw [lt_div_iff₀ (by positivity)] at hv
  rw [div_lt_iff₀ (by positivity), neg_sub, sub_mul, div_mul_cancel₀ _ (by positivity)]
  linarith

/-- No binary32 number is nearer to q than that of the bits, and another is as near only where these are even. The
fields of infinities and NaNs are counted among the others too, at the values ieeeValue gives them. -/
def NearestEven32 (bits : BitVec 32) (q : ℚ) : Prop :=
  ∀ other : BitVec 32, binary32Value other ≠ binary32Value bits →
    |binary32Value bits - q| < |binary32Value other - q| ∨
      |binary32Value bits - q| = |binary32Value other - q| ∧ bits.getLsbD 0 = false

theorem nearestEven32_of_eq {bits : BitVec 32} {q : ℚ} (h : binary32Value bits = q) : NearestEven32 bits q := by
  intro other hne
  left
  rw [h, sub_self, abs_zero]
  exact abs_pos.2 (sub_ne_zero.2 (h ▸ hne))

theorem nearestEven32_rounded {n : Nat} (h : 2 ^ 24 ≤ n) (h' : n < 2 ^ 32) :
    NearestEven32 (binary32Of n) (n / 2 ^ 18) := by
  intro other hne
  have hn : n ≠ 0 := by omega
  have hlog : 24 ≤ n.log2 := (Nat.le_log2 hn).2 h
  obtain ⟨-, -, value⟩ := isBinary32_rounded h h'
  rw [value] at hne ⊢
  rw [abs_sub_eq_gridDistance]
  rcases lt_or_ge (binary32Value other) (2 ^ n.log2 / 2 ^ 18) with hlow | hhigh
  · exact .inl (roundShift_near_of_lt (by omega) hn hlow)
  obtain ⟨a, ha⟩ := binary32Value_multiple (by omega) hhigh
  rw [ha] at hne ⊢
  rw [abs_sub_eq_gridDistance]
  have hne' : a ≠ roundShift n (n.log2 - 23) := fun e => hne (by rw [e])
  rcases roundShift_nearest hne' with hlt | ⟨heq, heven⟩
  · left
    gcongr
  · have significand : significand32 n = roundShift n (n.log2 - 23) := if_neg (by omega)
    refine .inr ⟨by rw [heq], ?_⟩
    rw [binary32Of_eq hn]
    exact binary32Bits_even (significand32_bounds hn).1 (significand ▸ heven)

/-- The binary32 of n is a finite number nearest to n / 2^18, by rounding or with nothing rounded. -/
theorem binary32Of_nearestEven {n : Nat} (h : n < 2 ^ 32) :
    (binary32Of n).msb = false ∧ binary32Finite (binary32Of n) = true ∧ NearestEven32 (binary32Of n) (n / 2 ^ 18) := by
  rcases Nat.lt_or_ge n (2 ^ 24) with hexact | hround
  · obtain ⟨sign, finite, value⟩ := isBinary32_exact hexact
    exact ⟨sign, finite, nearestEven32_of_eq value⟩
  · obtain ⟨sign, finite, -⟩ := isBinary32_rounded hround h
    exact ⟨sign, finite, nearestEven32_rounded hround h⟩

/-- Settles O38: (raw / 2^21)·360 is deg_q / 2^18, which the binary32 of deg_q is nearest to. -/
theorem floatOutBinary32IsNearestEven : Obligations.FloatOutBinary32IsNearestEven := by
  refine ⟨fun raw => ?_, _, rfl, ?_⟩
  · have target : (raw.toNat : ℚ) / 2 ^ 21 * 360 = ((raw.toNat * 45 : Nat) : ℚ) / 2 ^ 18 := by
      push_cast
      ring
    obtain ⟨sign, finite, nearest⟩ := binary32Of_nearestEven ((raw_mul_lt raw).trans (by norm_num))
    rw [target]
    exact ⟨_, rfl, sign, finite, fun other _ => nearest other⟩
  · obtain ⟨-, -, largest⟩ := isBinary32_rounded (n := 0x59FFFD3) (by norm_num) (by norm_num)
    have log : Nat.log2 0x59FFFD3 = 26 := rfl
    have rounded : roundShift 0x59FFFD3 3 = 0xB3FFFA := rfl
    rw [log, rounded] at largest
    exact largest.trans (by norm_num)

end Sys2Proof.Proofs
end

section
/-! The stream requests as whole next states: opening by how the header's slots end, one byte by its place in the group,
and the stop (43_stream.md rules R181 to R187). -/

namespace Sys2Proof.Proofs

open Sys2Proof.Machine Sys2Proof.Safety Sys2Proof.Laws

/-- STREAM_START and READ_ANGLE_BURST share one body (R181). -/
theorem exec_opensStream {i : Instr} {s : State} (hi : i = .streamStart ∨ i = .readAngleBurst)
    (hf : s.fault = false) : exec i s = .next s.openStream := by
  rcases hi with rfl | rfl <;> exact exec_running hf _

/-- Both header slots answered: the stream is open at index 0, inside an asserted chip-select (R181). -/
theorem openStream_answered {s : State} {i0 i1 : Byte} (ha : s.strmActive = false) (hl : s.pwrCycleLock = false)
    (h0 : s.slotAnswer 0 = .byte i0) (h1 : s.slotAnswer 1 = .byte i1) :
    s.openStream = State.answer
      { (s.skipSlots 2).emit [.csAssert, .xchg 0xA0 i0, .xchg 0x03 i1] with strmActive := true, strmIdx := 0 }
      .ok .nothing := by
  have hout : outBytes .readAngleBurst 0 0 = [0xA0, 0x03] := rfl
  rw [State.openStream, openBus_free ha hl, hout, slots_byte (by simpa using h0), slots_byte (by simpa using h1)]
  simp [skipSlots_emit, skipSlots_skipSlots]

/-- A header slot that fails is the last one sent: the frame is closed and the stream is not open (R182). -/
theorem openStream_failAt {s : State} {pre post ins : List Byte} {o : Byte}
    (ha : s.strmActive = false) (hl : s.pwrCycleLock = false) (h : FailsAfter s ins)
    (hlen : pre.length = ins.length) (hout : outBytes .readAngleBurst 0 0 = pre ++ o :: post) :
    s.openStream = ((s.skipSlots (ins.length + 1)).emit
      (.csAssert :: xchgEvents pre ins ++ [.xchgError o, .csDeassert])).answer .busError .nothing := by
  rw [State.openStream, openBus_free ha hl, hout, slots_failAt (s := s.emit [.csAssert]) hlen h.1 h.2]
  simp [skipSlots_emit]

/-- Settles O44, by the header slot that fails, if any. -/
theorem streamStartOpensStream : Obligations.StreamStartOpensStream := by
  intro i s hi hf ha hl
  rw [exec_opensStream hi hf]
  refine ⟨fun i0 i1 hans => ?_, fun he => ?_, fun i0 hans he => ?_⟩
  · have answer (k : Nat) (hk : k < 2) := answered_getElem hans k hk
    exact congrArg _ (openStream_answered ha hl (answer 0 (by omega)) (answer 1 (by omega)))
  · have first : FailsAfter s [] := ⟨by simp, he⟩
    exact congrArg _ (openStream_failAt (pre := []) ha hl first rfl rfl)
  · have second : FailsAfter s [i0] := ⟨answered_getElem hans, he⟩
    exact congrArg _ (openStream_failAt (pre := [0xA0]) ha hl second rfl rfl)

/-- Settles O45, by the place of the byte in its group. -/
theorem streamByteTakesGroupByte : Obligations.StreamByteTakesGroupByte := by
  intro r s hf ha hans
  rw [exec_streamByte_byte hf ha (answered_getElem hans 0 (by simp))]
  refine ⟨fun hi => ?_, fun hi => ?_, fun hi => ?_, fun hi => ?_⟩
  · exact congrArg _ (takeGroupByte_first (by exact hi) r)
  · exact congrArg _ (takeGroupByte_second (by exact hi) r)
  · exact congrArg _ (takeGroupByte_third (by exact hi) r)
  · exact congrArg _ (takeGroupByte_fourth (by exact hi) r)

/-- Settles O46: the failing slot's event, then what R185 does. -/
theorem streamByteBusErrorEndsStream : Obligations.StreamByteBusErrorEndsStream := by
  intro s hf ha he
  rw [exec_running hf, streamByte_busError ha he, State.abortStream, emit_emit]
  rfl

/-- Settles O47, by whether a stream is open and where in its group it stands. -/
theorem streamStopOnlyAtBoundary : Obligations.StreamStopOnlyAtBoundary := by
  intro s hf
  rw [exec_running hf]
  refine ⟨fun ha hi => ?_, fun ha hi => ?_, fun ha => ?_⟩
  · exact congrArg _ (streamStop_boundary ha hi)
  · exact congrArg _ (streamStop_midGroup ha hi)
  · exact congrArg _ (streamStop_inactive ha)

end Sys2Proof.Proofs
end

section
/-! The checks of R206 in their order, request by request: a halted block (R205), the contract faults of R202, and the
power-cycle lock (R207). -/

namespace Sys2Proof.Proofs

open Sys2Proof.Machine Sys2Proof.Safety Sys2Proof.Laws

/-- Settles O7: a halted block stops at check 1 of R206, whatever the request. -/
theorem haltedBlockAnswersFault : Obligations.HaltedBlockAnswersFault := fun i _ hf => exec_halted hf i

/-! The contract faults (R202, R204). -/

/-- From s to t the fault with this code was raised and nothing else happened, or none was raised. -/
inductive Raises (s : State) : Option (BitVec 4) → State → Prop
  | raised (c : FaultCause) : Raises s (some c.code) (s.raiseFault c)
  | kept {t : State} (fault : t.fault = s.fault) (cause : t.faultCause = s.faultCause) : Raises s none t

theorem raises_answer (s : State) (st : Status) (r : Result) : Raises s none (s.answer st r) := .kept rfl rfl

/-- The request used the bus at most, and then answered a status. -/
theorem BusUsed.raises_answer {s u : State} (h : BusUsed s u) (st : Status) (r : Result) :
    Raises s none (u.answer st r) := by
  obtain ⟨k, es, rfl⟩ := h
  exact .kept rfl rfl

theorem BusUsed.raises_hang {s u : State} (h : BusUsed s u) : Raises s none u.hang := by
  obtain ⟨k, es, rfl⟩ := h
  exact .kept rfl rfl

/-! What a codec op raises is in its verdict. -/

/-- The fault code of a verdict. -/
def verdictFault : Verdict → Option (BitVec 4)
  | .ok _ => none
  | .error c => some c.code

theorem raises_conclude (s : State) (v : Verdict) : Raises s (verdictFault v) (s.conclude v) := by
  rcases v with c | ⟨st, r⟩
  · exact .raised c
  · exact raises_answer s st r

theorem knownCmd_eq : ∀ c : Cmd, knownCmd c = (WireCmd.ofCode c).isSome := by decide

@[simp] theorem knownCmd_code (w : WireCmd) : knownCmd w.code = true := by simp [knownCmd_eq]

theorem code_beq_burst (w : WireCmd) : (w.code == 0xA) = decide (w = .readAngleBurst) := by cases w <;> rfl

/-- A command is one of R71's, or reserved (R79). -/
theorem cmd_cases (c : Cmd) : (∃ w : WireCmd, c = w.code) ∨ WireCmd.ofCode c = none := by
  rcases h : WireCmd.ofCode c with _ | w
  · exact .inr rfl
  · exact .inl ⟨w, ofCode_eq_some.1 h⟩

/-- Only READ_BYTE and WRITE_BYTE read their address, and its range is 12 bits (R57, R82). -/
theorem addrFault_code (w : WireCmd) (addr : Addr) : addrFault w.code addr = !addrOk w addr := by
  have range : decide (4096 ≤ addr.toNat) = !addrLegal addr := by
    rw [Bool.eq_iff_iff, decide_eq_true_iff, Bool.not_eq_true', ← Bool.not_eq_true, addrLegal_iff_lt, not_lt]
  cases w
  case readByte => exact range
  case writeByte => exact range
  all_goals rfl

theorem contractFault_encode (c : Cmd) (addr : Addr) (data : Byte) (s : State) :
    contractFault (.encode c addr data) s = verdictFault (encodeVerdict c addr data) := by
  rcases cmd_cases c with ⟨w, rfl⟩ | reserved
  · rw [encodeVerdict_code, contractFault, addrFault_code]
    cases addrOk w addr <;> simp [verdictFault, FaultCause.code]
  · simp [encodeVerdict_reserved reserved, contractFault, knownCmd_eq, reserved, verdictFault, FaultCause.code]

/-- The three in-bytes of a three-slot frame always decode (R101). -/
theorem replyVerdict_three {w : WireCmd} (hw : w ≠ .readAngleBurst) {ins : List Byte} (h : ins.length = 3) :
    verdictFault (replyVerdict w ins) = none := by
  obtain ⟨i0, i1, i2, rfl⟩ := List.length_eq_three.1 h
  cases w
  case readByte => rfl
  case writeByte => rfl
  case readAngleBurst => exact absurd rfl hw
  all_goals exact congrArg verdictFault (ackVerdict_eq i2)

/-- Whole groups assemble. -/
theorem groups_isSome {ins : List Byte} (h : ins.length % 4 = 0) : ∃ l, groups ins = some l := by
  fun_induction groups ins with
  | case1 => exact ⟨[], rfl⟩
  | case2 b0 b1 b2 b3 rest ih =>
    obtain ⟨l, e⟩ := ih (by simp only [List.length_cons] at h; omega)
    exact ⟨_, congrArg _ e⟩
  | case3 l hnil hquad =>
    rcases l with _ | ⟨b0, _ | ⟨b1, _ | ⟨b2, _ | ⟨b3, rest⟩⟩⟩⟩
    · exact absurd rfl hnil
    · cases h
    · cases h
    · cases h
    · exact absurd rfl (hquad b0 b1 b2 b3 rest)

/-- A burst's header and whole groups always decode (R101). -/
theorem replyVerdict_burst_whole {ins : List Byte} (h : ¬ (ins.length < 2 ∨ (ins.length - 2) % 4 ≠ 0)) :
    verdictFault (replyVerdict .readAngleBurst ins) = none := by
  rcases ins with _ | ⟨h0, _ | ⟨h1, rest⟩⟩
  · exact absurd (.inl Nat.two_pos) h
  · exact absurd (.inl Nat.one_lt_two) h
  · obtain ⟨l, e⟩ := groups_isSome (ins := rest) (by simpa using h)
    rw [replyVerdict, e]
    rfl

theorem contractFault_decode (c : Cmd) (ins : List Byte) (s : State) :
    contractFault (.decode c ins) s = verdictFault (decodeVerdict c ins) := by
  rcases cmd_cases c with ⟨w, rfl⟩ | reserved
  · rw [decodeVerdict_code, contractFault, knownCmd_code, code_beq_burst]
    by_cases hw : w = .readAngleBurst
    · subst hw
      by_cases h : ins.length < 2 ∨ (ins.length - 2) % 4 ≠ 0
      · rw [replyVerdict_burst_frameLength h]
        exact if_pos h
      · rw [replyVerdict_burst_whole h]
        exact if_neg h
    · by_cases h : ins.length = 3
      · simp [hw, h, replyVerdict_three hw h]
      · simp [hw, h, replyVerdict_frameLength hw h, verdictFault, FaultCause.code]
  · simp [decodeVerdict_reserved reserved, contractFault, knownCmd_eq, reserved, verdictFault, FaultCause.code]

/-! Requests that open a frame: the checks before BusBusy, then the bus (R206). -/

/-- What a request does behind the checks of `State.openBus` raises nothing, so BusBusy is its only fault there. -/
theorem raises_openBus {s : State} {run : State → State} (hrun : Raises s none (run s)) :
    Raises s (if s.strmActive then some 5 else none) (s.openBus run) := by
  rcases ha : s.strmActive
  · rcases hl : s.pwrCycleLock
    · rwa [openBus_free ha hl]
    · exact openBus_locked ha hl run ▸ raises_answer s _ _
  · exact openBus_busy ha run ▸ .raised .busBusy

/-- The table's entry for a transfer of a three-slot command (R202). -/
theorem transferFault_code {w : WireCmd} (hw : w ≠ .readAngleBurst) (addr : Addr) (s : State) :
    transferFault w.code addr s =
      if addrOk w addr then (if s.strmActive then some 5 else none) else some 3 := by
  rw [transferFault, addrFault_code, knownCmd_code, code_beq_burst]
  cases addrOk w addr <;> simp [hw]

theorem length_outBytes {w : WireCmd} (hw : w ≠ .readAngleBurst) (addr : Addr) (data : Byte) :
    (outBytes w addr data).length = 3 := by
  cases w
  case readAngleBurst => exact absurd rfl hw
  all_goals rfl

theorem raises_transfer {w : WireCmd} (hw : w ≠ .readAngleBurst) (addr : Addr) (data : Byte) (s : State) :
    Raises s (transferFault w.code addr s) (s.transfer w addr data) := by
  rw [transferFault_code hw, State.transfer]
  split
  · apply raises_openBus
    rcases frame_cases s (outBytes w addr data) with ⟨ins, hlen, e⟩ | ⟨_, _, _, _, _, _, e⟩ | ⟨_, _, _, _, _, _, e⟩ <;>
      rw [e]
    · have accepted := replyVerdict_three hw (hlen.trans (length_outBytes hw addr data))
      show Raises s none (State.conclude _ (replyVerdict w ins))
      rcases hv : replyVerdict w ins with c | ⟨st, r⟩
      · simp [hv, verdictFault] at accepted
      · exact BusUsed.raises_answer ⟨_, _, rfl⟩ st r
    · exact BusUsed.raises_answer ⟨_, _, rfl⟩ _ _
    · exact BusUsed.raises_hang ⟨_, _, rfl⟩
  · exact .raised .addressRange

/-- XFER is the transfer of a three-slot command, or raises IllegalCmd, as the table says (R79, R102). -/
theorem xfer_cases (c : Cmd) (addr : Addr) (data : Byte) :
    (∃ w : WireCmd, w ≠ .readAngleBurst ∧ c = w.code ∧ body (.xfer c addr data) = (State.transfer · w addr data)) ∨
    ((∀ s, transferFault c addr s = some 2) ∧ body (.xfer c addr data) = (State.raiseFault · .illegalCmd)) := by
  rcases cmd_cases c with ⟨w, rfl⟩ | reserved
  · cases w
    case readAngleBurst => exact .inr ⟨fun _ => rfl, rfl⟩
    all_goals exact .inl ⟨_, by decide, rfl, rfl⟩
  · exact .inr ⟨fun s => by simp [transferFault, knownCmd_eq, reserved], by simp [body, reserved]⟩

theorem raises_xfer (c : Cmd) (addr : Addr) (data : Byte) (s : State) :
    Raises s (transferFault c addr s) (body (.xfer c addr data) s) := by
  rcases xfer_cases c addr data with ⟨w, hw, rfl, e⟩ | ⟨illegal, e⟩
  · exact e ▸ raises_transfer hw addr data s
  · rw [illegal s, e]
    exact .raised .illegalCmd

theorem raises_readAngle (s : State) :
    Raises s (if s.strmActive then some 5 else none) (body .readAngle s) := by
  apply raises_openBus
  obtain ⟨u, hu, ⟨ins, e⟩ | e | e⟩ := framesEnd_readRegs Config.angleRegs s <;> rw [e]
  · exact hu.raises_answer _ _
  · exact hu.raises_answer _ _
  · exact hu.raises_hang

theorem raises_openStream (s : State) : Raises s (if s.strmActive then some 5 else none) s.openStream := by
  apply raises_openBus
  have used := (busUsed_emit s [.csAssert]).trans (busUsed_slots _ (outBytes .readAngleBurst 0 0))
  rcases e : (s.emit [.csAssert]).slots (outBytes .readAngleBurst 0 0) with ⟨ins | _ | _, t⟩ <;> rw [e] at used
  · obtain ⟨k, es, rfl⟩ := used
    exact .kept rfl rfl
  · exact (used.trans (busUsed_emit t [.csDeassert])).raises_answer _ _
  · exact used.raises_hang

/-! Requests to an open stream (R184, R185, R187). -/

theorem raises_streamByte (s : State) :
    Raises s (if s.strmActive then none else some 6) (body .streamByte s) := by
  rcases ha : s.strmActive
  · exact streamByte_inactive ha ▸ .raised .streamNotActive
  rcases hs : s.slotAnswer 0 with r | _ | _
  · rw [streamByte_byte ha hs]
    obtain ⟨hfault, hcause, -, -⟩ := takeGroupByte_frame ((s.skipSlots 1).emit [.xchg Config.dummyByte r]) r
    exact .kept hfault hcause
  · rw [streamByte_busError ha hs]
    exact .kept rfl rfl
  · rw [streamByte_never ha hs]
    exact .kept rfl rfl

theorem raises_streamStop (s : State) :
    Raises s (if s.strmActive ∧ s.strmIdx ≠ 0 then some 7 else none) (body .streamStop s) := by
  rcases ha : s.strmActive
  · rw [streamStop_inactive ha, if_neg (by simp)]
    exact raises_answer s _ _
  by_cases hi : s.strmIdx = 0
  · rw [streamStop_boundary ha hi, if_neg (by simp [hi])]
    exact .kept rfl rfl
  · rw [streamStop_midGroup ha hi, if_pos ⟨rfl, hi⟩]
    exact .raised .stopMidGroup

/-- Every request raises what the table of R202 says, and nothing where it says nothing. -/
theorem raises_body (i : Instr) (s : State) : Raises s (contractFault i s) (body i s) := by
  cases i with
  | readByte addr => exact raises_transfer (w := .readByte) nofun addr 0 s
  | writeByte addr data => exact raises_transfer (w := .writeByte) nofun addr data s
  | burnEeprom => exact raises_transfer (w := .burnEeprom) nofun 0 0 s
  | setZero => exact raises_transfer (w := .setZero) nofun 0 0 s
  | xfer cmd addr data => exact raises_xfer cmd addr data s
  | readAngle => exact raises_readAngle s
  | readAngleBurst => exact raises_openStream s
  | streamStart => exact raises_openStream s
  | streamByte => exact raises_streamByte s
  | streamStop => exact raises_streamStop s
  | encode cmd addr data => exact contractFault_encode cmd addr data s ▸ raises_conclude s _
  | decode cmd ins => exact contractFault_decode cmd ins s ▸ raises_conclude s _
  | reservedOp _ => exact .raised .reservedOp
  | crc8 _ => exact raises_answer s _ _
  | assemble _ _ _ _ => exact raises_answer s _ _
  | convert _ => exact raises_answer s _ _
  | statusFlags _ => exact raises_answer s _ _
  | calDecode _ => exact raises_answer s _ _

/-- Settles O9: raising a fault is the whole effect of a request that the table gives one. -/
theorem faultRaisedExactlyByCause : Obligations.FaultRaisedExactlyByCause := by
  intro i s hf
  rw [exec_running hf]
  have outcome := raises_body i s
  generalize contractFault i s = code, body i s = t at outcome ⊢
  cases outcome with
  | raised c => rfl
  | kept fault cause => exact ⟨_, rfl, fault.trans hf, cause⟩

/-! The power-cycle lock (R207). -/

/-- A transfer with no contract fault is past its address check, with no stream open. -/
theorem transfer_locked {w : WireCmd} (hw : w ≠ .readAngleBurst) {addr : Addr} {s : State}
    (h : transferFault w.code addr s = none) (hl : s.pwrCycleLock = true) (data : Byte) :
    s.transfer w addr data = s.answer .powerCycleRequired .nothing := by
  rw [transferFault_code hw] at h
  rcases hok : addrOk w addr
  · simp [hok] at h
  · have inactive : s.strmActive = false := by simpa [hok] using h
    rw [State.transfer, if_pos hok, openBus_locked inactive hl]

/-- A request that opens a frame and has no contract fault comes to the lock with no stream open (R206). -/
theorem body_locked {i : Instr} (hi : opensBus i = true) {s : State} (h : contractFault i s = none)
    (hl : s.pwrCycleLock = true) : body i s = s.answer .powerCycleRequired .nothing := by
  have inactive (h : (if s.strmActive then some 5 else none : Option (BitVec 4)) = none) : s.strmActive = false := by
    simpa using h
  cases i with
  | readByte addr => exact transfer_locked (w := .readByte) nofun h hl 0
  | writeByte addr data => exact transfer_locked (w := .writeByte) nofun h hl data
  | burnEeprom => exact transfer_locked (w := .burnEeprom) nofun h hl 0
  | setZero => exact transfer_locked (w := .setZero) nofun h hl 0
  | xfer cmd addr data =>
    rcases xfer_cases cmd addr data with ⟨w, hw, rfl, e⟩ | ⟨illegal, -⟩
    · exact e ▸ transfer_locked hw h hl data
    · exact absurd (h.symm.trans (illegal s)) nofun
  | readAngle => apply openBus_locked (inactive h) hl
  | readAngleBurst => apply openBus_locked (inactive h) hl
  | streamStart => apply openBus_locked (inactive h) hl
  | _ => cases hi

/-- The state with the lock at another level. -/
def withLock (s : State) (level : Bool) : State := { s with pwrCycleLock := level }

theorem takeGroupByte_withLock (s : State) (level : Bool) (r : Byte) :
    (withLock s level).takeGroupByte r = withLock (s.takeGroupByte r) level := by
  rcases strmIdx_cases s with h | h | h | h
  · rw [takeGroupByte_first h, takeGroupByte_first (s := withLock s level) h]; rfl
  · rw [takeGroupByte_second h, takeGroupByte_second (s := withLock s level) h]; rfl
  · rw [takeGroupByte_third h, takeGroupByte_third (s := withLock s level) h]; rfl
  · rw [takeGroupByte_fourth h, takeGroupByte_fourth (s := withLock s level) h]; rfl

theorem streamByte_withLock (s : State) (level : Bool) :
    body .streamByte (withLock s level) = withLock (body .streamByte s) level := by
  rcases ha : s.strmActive
  · rw [streamByte_inactive ha, streamByte_inactive (s := withLock s level) ha]; rfl
  rcases hs : s.slotAnswer 0 with r | _ | _
  · rw [streamByte_byte ha hs, streamByte_byte (s := withLock s level) ha hs]
    exact takeGroupByte_withLock ((s.skipSlots 1).emit [.xchg Config.dummyByte r]) level r
  · rw [streamByte_busError ha hs, streamByte_busError (s := withLock s level) ha hs]; rfl
  · rw [streamByte_never ha hs, streamByte_never (s := withLock s level) ha hs]; rfl

theorem streamStop_withLock (s : State) (level : Bool) :
    body .streamStop (withLock s level) = withLock (body .streamStop s) level := by
  rcases ha : s.strmActive
  · rw [streamStop_inactive ha, streamStop_inactive (s := withLock s level) ha]; rfl
  by_cases hi : s.strmIdx = 0
  · rw [streamStop_boundary ha hi, streamStop_boundary (s := withLock s level) ha hi]; rfl
  · rw [streamStop_midGroup ha hi, streamStop_midGroup (s := withLock s level) ha hi]; rfl

/-- The requests of an open stream do not sample the lock (R189), and the pure ones touch no bus. -/
theorem body_withLock {i : Instr} (hi : opensBus i = false) (s : State) (level : Bool) :
    body i (withLock s level) = withLock (body i s) level := by
  have pure_request (h : touchesNoBus i = true) : body i (withLock s level) = withLock (body i s) level := by
    obtain ⟨v, e⟩ := body_concludes h
    rw [e]
    rcases v with c | ⟨st, r⟩ <;> rfl
  cases i with
  | streamByte => exact streamByte_withLock s level
  | streamStop => exact streamStop_withLock s level
  | readByte _ => cases hi
  | writeByte _ _ => cases hi
  | burnEeprom => cases hi
  | setZero => cases hi
  | xfer _ _ _ => cases hi
  | readAngle => cases hi
  | readAngleBurst => cases hi
  | streamStart => cases hi
  | _ => exact pure_request rfl

theorem exec_withLock {i : Instr} (hi : opensBus i = false) {s t : State} (h : exec i s = .next t) (level : Bool) :
    exec i (withLock s level) = .next (withLock t level) := by
  rcases hf : s.fault
  · rw [exec_running hf, Host.Outcome.next.injEq] at h
    rw [exec_running (s := withLock s level) hf, body_withLock hi, h]
  · rw [exec_halted hf, Host.Outcome.next.injEq] at h
    rw [exec_halted (s := withLock s level) hf, ← h]
    rfl

/-- Settles O12: check 5 of R206 is behind the contract faults, and only the requests that open a frame come to it. -/
theorem lockRefusesBusRequests : Obligations.LockRefusesBusRequests := by
  refine ⟨fun i s hf hi hc hl => ?_, fun i s t level hi h => exec_withLock hi h level⟩
  rw [exec_running hf, body_locked hi hc hl]
  rfl

end Sys2Proof.Proofs
end

section
/-! RST between requests and inside a request (70_reset_and_hazards.md rules R230, R232). -/

namespace Sys2Proof.Proofs

open Sys2Proof.Machine Sys2Proof.Safety Sys2Proof.Laws

/-- RST finds the first n bus events of the request on the trace, all of them if it has no more (R232). -/
theorem cutState_trace_eq {s u : State} {emitted : List BusEvent} (h : u.trace = s.trace ++ emitted) (n : Nat) :
    (cutState s u n).trace = s.trace ++ emitted.take n := by
  have hdrop : u.trace.drop s.trace.length = emitted := by simp [h]
  unfold cutState
  rw [hdrop]
  split
  next hall => rw [List.take_of_length_le hall]; exact h
  next => rfl

/-- RST finds the lock and the inputs as they were when the request began, since no request writes them (R23). -/
theorem cutState_lock_inputs {i : Instr} {s u : State} (h : exec i s = .next u) (n : Nat) :
    (cutState s u n).pwrCycleLock = s.pwrCycleLock ∧ (cutState s u n).inputs = s.inputs := by
  unfold cutState
  split
  · exact lockIsOnlyAnInput.2 i s u h
  · exact ⟨rfl, rfl⟩

theorem step_requestRst_of_exec {s u : State} {bytes : List Byte} {n : Nat} {rest : List Input} {i : Instr}
    (hb : s.busHung = false) (h : s.inputs = .requestRst bytes n :: rest) (hd : decode bytes = .ok i)
    (hu : exec i (withInputs s rest) = .next u) : step s = .next ((withInputs s rest).cutAt u n) := by
  obtain rfl := Host.Outcome.next.inj ((exec_eq i _).symm.trans hu)
  exact step_requestRst hb h hd

/-- Settles O3: the trace where RST cuts the request is its first n events, and there RST resets the fields. -/
theorem rstInsideRequest : Obligations.RstInsideRequest := by
  constructor
  · intro s u bytes n rest i emitted hb hin hd hu htrace
    have hcut : (cutState (withInputs s rest) u n).trace = s.trace ++ emitted.take n :=
      cutState_trace_eq (s := withInputs s rest) htrace n
    obtain ⟨hlock, hinputs⟩ := cutState_lock_inputs (s := withInputs s rest) hu n
    refine ⟨_, step_requestRst_of_exec hb hin hd hu, ?_⟩
    rw [cutAt_eq, hcut]
    exact ⟨cutState_responses _ u n, hinputs, hlock, by simp [hcut], rfl, rfl, rfl, rfl, rfl, rfl, rfl, rfl⟩
  · intro s rest hin hb
    have waiting : ((withInputs s rest).strmActive || (withInputs s rest).busHung) = true :=
      Bool.or_eq_true_iff.2 (.inr hb)
    rw [step_rst hin, rst_eq, waiting]
    rfl

/-- RST between requests leaves no request running, as there was none before (R230). -/
theorem rst_of_not_busHung {s : State} (hb : s.busHung = false) :
    s.rst = { s with
      fault := false, faultCause := 0, strmActive := false, strmIdx := 0
      strmBuf0 := 0, strmBuf1 := 0, strmBuf2 := 0
      trace := s.trace ++ (if s.strmActive then [.csDeassert] else []) } := by
  rw [rst_eq, hb, Bool.or_false]
  simp [State.resetFields, State.emit, hb]

/-- Settles O2: after RST no request is running, so the next one presented is taken up. -/
theorem rstBetweenRequests : Obligations.RstBetweenRequests := by
  intro s rest hin hb
  refine ⟨_, step_rst hin, rst_of_not_busHung (s := withInputs s rest) hb, fun bytes i more hrest hd => ?_⟩
  have accepts : (withInputs s rest).rst.busHung = false := by simp [rst_eq]
  have presented : (withInputs s rest).rst.inputs = .request bytes :: more := by simp [rst_eq, withInputs, hrest]
  exact step_request accepts presented hd

end Sys2Proof.Proofs
end
